-- ==== Sys2Proof/Word.lean ====
section
/-! DEFINITION. The word types of the block (R11, R20, R24, R70): what the spec itself numbers as bits. Operands
that the spec treats as mathematical integers are Nat or Int and are not here. -/

namespace Sys2Proof

/-- A command word, cmd[31:0] (R70). -/
abbrev Word := BitVec 32

/-- A u16: the LFSR state, the DCO count, a table entry, a word of the read port (R11, R23, R25, R30, R50). -/
abbrev Half := BitVec 16

/-- A u12: a derived random value (R24). -/
abbrev Rand := BitVec 12

/-- A u8: a countdown register, W_CNT = 8 bits (R20). -/
abbrev Count := BitVec 8

/-- A byte of a byte-wide link (R53). -/
abbrev Byte := BitVec 8

end Sys2Proof
end

