-- ==== Sys2Proof/Syntax.lean ====
section
/-! DEFINITION. The commands (R75), one constructor for each row of spec/opcode_table.json, and the assembler's
source lines (R80, R82). Operands are the values R74 decodes: NOTE, ID and MODE unsigned, BEND signed. -/

namespace Sys2Proof

/-- A command. -/
inductive Instr where
  /-- 0x0 NOP (R170). -/
  | nop
  /-- 0x1 DCOCVT (R120). -/
  | dcocvt (note : Nat) (bend : Int)
  /-- 0x2 RNGDRAW (R150). -/
  | rngdraw
  /-- 0x3 RTARM (R100). -/
  | rtarm (id : Nat)
  /-- 0x4 RTTICK (R105). -/
  | rttick (mode : Nat)
  /-- 0x5 SRESET (R171). -/
  | sreset
  /-- 0x6 to 0xF: the reserved opcodes (R77, R172). -/
  | reserved6
  | reserved7
  | reserved8
  | reserved9
  | reservedA
  | reservedB
  | reservedC
  | reservedD
  | reservedE
  | reservedF
deriving DecidableEq, Repr

/-- A line of assembler source (R80) or a pseudo-instruction (R82). Operands are as written, before any range
check. -/
inductive Asm where
  | nop
  | dcocvt (note bend : Int)
  | rngdraw
  | rtarm (id : Int)
  | rttick (mode : Int)
  | sreset
  /-- `RTARM.M v`: mono voice v. -/
  | rtarmMono (v : Int)
  /-- `RTARM.P s`: poly slot s. -/
  | rtarmPoly (s : Int)
  /-- `DCOCVT note`: bend zero. -/
  | dcocvtNote (note : Int)
  /-- `RTTICK`: mode 0. -/
  | rttickPlain
deriving DecidableEq, Repr

/-- Why a byte string holds no command. -/
inductive DecodeError where
  /-- Raised by decodeBytes on fewer than four bytes: a partial command cannot be presented (R55;
  93_implementation_defined.md U1). DESIGN CHOICE, log entry 17. Safe. -/
  | partialCommand
deriving DecidableEq, Repr

end Sys2Proof
end

