-- ==== Sys2Proof/WellFormed.lean ====
section
/-! DEFINITION. The operand ranges of R74: what the fields of a command word can hold. -/

namespace Sys2Proof

/-- NOTE is 0..127 (R72, R74). -/
def noteInRange (note : Nat) : Bool := decide (note ≤ 127)

/-- BEND is -8192..8191 (R72, R74). -/
def bendInRange (bend : Int) : Bool := decide (-8192 ≤ bend) && decide (bend ≤ 8191)

/-- ID is 0..15, whatever NCNT is (R74, R80). -/
def idInRange (id : Nat) : Bool := decide (id ≤ 15)

/-- MODE is 0..15 (R74). -/
def modeInRange (mode : Nat) : Bool := decide (mode ≤ 15)

/-- Every operand lies in the range its field can encode. -/
def Instr.wellFormed : Instr → Bool
  | .nop => true
  | .dcocvt note bend => noteInRange note && bendInRange bend
  | .rngdraw => true
  | .rtarm id => idInRange id
  | .rttick mode => modeInRange mode
  | .sreset => true
  | .reserved6 => true
  | .reserved7 => true
  | .reserved8 => true
  | .reserved9 => true
  | .reservedA => true
  | .reservedB => true
  | .reservedC => true
  | .reservedD => true
  | .reservedE => true
  | .reservedF => true

end Sys2Proof
end

