-- ==== Sys2Proof/Decode.lean ====
section
/-! DEFINITION. Decoding (R70 to R79), total on every word; the encoder after it; the byte order of a byte-wide
link (R53); the opcode map as a table (R75); and the BEND field of a MIDI pitch bend (R74). -/

namespace Sys2Proof

/-- OP = cmd[31:28] (R70). -/
def opField (w : Word) : BitVec 4 := w.extractLsb' 28 4

/-- NOTE = zext(cmd[20:14]) (R72, R74). -/
def noteField (w : Word) : Nat := (w.extractLsb' 14 7).toNat

/-- BEND = sext(cmd[13:0]): cmd[13] is the sign (R72, R74). -/
def bendField (w : Word) : Int := (w.extractLsb' 0 14).toInt

/-- X = zext(cmd[3:0]): ID of RTARM, MODE of RTTICK (R73, R74). -/
def xField (w : Word) : Nat := (w.extractLsb' 0 4).toNat

/-- R75, R78: the command a word is, by cmd[31:28] alone. Reserved operand bits are not looked at (R76). -/
def decode (w : Word) : Instr :=
  match (opField w).toNat with
  | 0x0 => .nop
  | 0x1 => .dcocvt (noteField w) (bendField w)
  | 0x2 => .rngdraw
  | 0x3 => .rtarm (xField w)
  | 0x4 => .rttick (xField w)
  | 0x5 => .sreset
  | 0x6 => .reserved6
  | 0x7 => .reserved7
  | 0x8 => .reserved8
  | 0x9 => .reserved9
  | 0xA => .reservedA
  | 0xB => .reservedB
  | 0xC => .reservedC
  | 0xD => .reservedD
  | 0xE => .reservedE
  | _ => .reservedF

/-! ## Byte-wide links (R53) -/

/-- R53: byte 0 is cmd[31:24], byte 3 is cmd[7:0]. -/
def commandBytes (w : Word) : List Byte :=
  [w.extractLsb' 24 8, w.extractLsb' 16 8, w.extractLsb' 8 8, w.extractLsb' 0 8]

/-- R53: byte 0 of a read word is rd_data[15:8] and byte 1 is rd_data[7:0]. -/
def readBytes (d : Half) : List Byte :=
  [d.extractLsb' 8 8, d.extractLsb' 0 8]

/-- The command word that four bytes carry (R53). -/
def wordOfBytes (b0 b1 b2 b3 : Byte) : Word := b0 ++ b1 ++ b2 ++ b3

/-- The command at the head of a byte string and the rest of it. Any four bytes are a command (R78). DESIGN CHOICE:
fewer are refused by name, no command (log entry 17; R55). Safe. -/
def decodeBytes : List Byte → Except DecodeError (Instr × List Byte)
  | b0 :: b1 :: b2 :: b3 :: rest => .ok (decode (wordOfBytes b0 b1 b2 b3), rest)
  | _ => .error .partialCommand

/-- The host's view of the decoder: an instruction of `nbits` bits whose bits are `w`, every higher bit 0, laid out
in bytes as R53 orders them. -/
def decodeTableWord (nbits w : Nat) : Option Instr :=
  match decodeBytes (commandBytes (BitVec.ofNat 32 (w % 2 ^ nbits))) with
  | .ok (i, _) => some i
  | .error _ => none

/-! ## Encoding -/

/-- The opcode of each command (R75). -/
def Instr.opcode : Instr → BitVec 4
  | .nop => 0x0#4
  | .dcocvt _ _ => 0x1#4
  | .rngdraw => 0x2#4
  | .rtarm _ => 0x3#4
  | .rttick _ => 0x4#4
  | .sreset => 0x5#4
  | .reserved6 => 0x6#4
  | .reserved7 => 0x7#4
  | .reserved8 => 0x8#4
  | .reserved9 => 0x9#4
  | .reservedA => 0xA#4
  | .reservedB => 0xB#4
  | .reservedC => 0xC#4
  | .reservedD => 0xD#4
  | .reservedE => 0xE#4
  | .reservedF => 0xF#4

/-- Format N with the reserved bits zero (R71, R81). -/
def formatN (op : BitVec 4) : Word := op ++ 0#28

/-- Format D with the reserved bits zero (R72, R81). -/
def formatD (op : BitVec 4) (note : BitVec 7) (bend : BitVec 14) : Word := op ++ 0#7 ++ note ++ bend

/-- Format I with the reserved bits zero (R73, R81). -/
def formatI (op : BitVec 4) (x : BitVec 4) : Word := op ++ 0#24 ++ x

/-- The canonical word of a command (R80, R81). -/
def encode (i : Instr) : Word :=
  match i with
  | .dcocvt note bend => formatD i.opcode (BitVec.ofNat 7 note) (BitVec.ofInt 14 bend)
  | .rtarm id => formatI i.opcode (BitVec.ofNat 4 id)
  | .rttick mode => formatI i.opcode (BitVec.ofNat 4 mode)
  | .nop | .rngdraw | .sreset | .reserved6 | .reserved7 | .reserved8 | .reserved9 | .reservedA | .reservedB
  | .reservedC | .reservedD | .reservedE | .reservedF => formatN i.opcode

/-- The reserved operand bits of each command's format (R71 to R73, R76). -/
def Instr.reservedMask : Instr → Word
  | .dcocvt _ _ => 0x0FE00000#32
  | .rtarm _ => 0x0FFFFFF0#32
  | .rttick _ => 0x0FFFFFF0#32
  | .nop | .rngdraw | .sreset | .reserved6 | .reserved7 | .reserved8 | .reserved9 | .reservedA | .reservedB
  | .reservedC | .reservedD | .reservedE | .reservedF => 0x0FFFFFFF#32

/-! ## The opcode map as a table (R75; spec/opcode_table.json) -/

/-- A row's mnemonic, as spec/opcode_table.json spells it. -/
def Instr.mnemonic : Instr → String
  | .nop => "NOP"
  | .dcocvt _ _ => "DCOCVT"
  | .rngdraw => "RNGDRAW"
  | .rtarm _ => "RTARM"
  | .rttick _ => "RTTICK"
  | .sreset => "SRESET"
  | .reserved6 => "RESERVED_0x6"
  | .reserved7 => "RESERVED_0x7"
  | .reserved8 => "RESERVED_0x8"
  | .reserved9 => "RESERVED_0x9"
  | .reservedA => "RESERVED_0xA"
  | .reservedB => "RESERVED_0xB"
  | .reservedC => "RESERVED_0xC"
  | .reservedD => "RESERVED_0xD"
  | .reservedE => "RESERVED_0xE"
  | .reservedF => "RESERVED_0xF"

/-- The rows of the opcode map, (mnemonic, match); every row's mask is `opcodeMask` (R75). -/
def opcodeRows : List (String × Word) :=
  [("NOP", 0x00000000#32), ("DCOCVT", 0x10000000#32), ("RNGDRAW", 0x20000000#32), ("RTARM", 0x30000000#32),
   ("RTTICK", 0x40000000#32), ("SRESET", 0x50000000#32), ("RESERVED_0x6", 0x60000000#32),
   ("RESERVED_0x7", 0x70000000#32)] ++
  [("RESERVED_0x8", 0x80000000#32), ("RESERVED_0x9", 0x90000000#32), ("RESERVED_0xA", 0xA0000000#32),
   ("RESERVED_0xB", 0xB0000000#32), ("RESERVED_0xC", 0xC0000000#32), ("RESERVED_0xD", 0xD0000000#32),
   ("RESERVED_0xE", 0xE0000000#32), ("RESERVED_0xF", 0xF0000000#32)]

/-- R75: mask = 0xF0000000 for every row. -/
def opcodeMask : Word := 0xF0000000#32

/-! ## The BEND field of a MIDI pitch bend (R74) -/

/-- R74: for the raw value r = MSB * 128 + LSB, the BEND field is r ^ 0x2000. -/
def bendOfMidi (msb lsb : BitVec 7) : BitVec 14 := (msb ++ lsb) ^^^ 0x2000#14

end Sys2Proof
end

