-- ==== Sys2Proof/Config.lean ====
section
/-! DEFINITION. The configuration record of R6, its well-formedness (R8), the constants of the logic (R6, R7),
and the model's two open values: the parameters this hardware was built with, and the order of two commands that
arrive in one step. -/

namespace Sys2Proof

/-- RNG_SEED, the initial LFSR state, 42 (R6). -/
def rngSeed : Half := 0x002A#16

/-- RNG_MASK, the LFSR feedback mask (R6). -/
def rngMask : Half := 0xB400#16

/-- SEMITONE, one semitone in units of the fixed-point pitch, 2^7 (R6). -/
def semitone : Int := 128

/-- OCTAVE, twelve semitones; not a parameter (R7; 90_conflicts.md C3). -/
def octave : Int := 1536

/-- The parameters of R6 as raw data. TICK_PERIOD has no unit in the spec; here it counts some fixed unit of time. -/
structure Params where
  /-- N_POLY, the number of poly voice slots. -/
  nPoly : Nat
  /-- RETRIG_TICKS, the value a countdown is armed to. -/
  retrigTicks : Count
  /-- REF_NOTE. -/
  refNote : Nat
  /-- BEND_SHIFT. -/
  bendShift : Nat
  /-- LUT[0..96], the table ROM (R50). -/
  lut : Vector Half 97
  /-- TICK_PERIOD. -/
  tickPeriod : Nat
deriving DecidableEq, Repr

/-- R8: every field in its legal range (R6) and LUT non-increasing. -/
abbrev Params.WellFormed (p : Params) : Prop :=
  (1 ≤ p.nPoly ∧ p.nPoly ≤ 14) ∧ p.retrigTicks ≠ 0#8 ∧ p.refNote ≤ 127 ∧ p.bendShift ≤ 13 ∧ 0 < p.tickPeriod ∧
    ∀ i : Fin 96, p.lut[i.val + 1]'(by omega) ≤ p.lut[i.val]'(by omega)

/-- A configuration: parameters together with the proof that they are well formed, so that an ill-formed
configuration is no configuration of any machine (R8: a model refuses it). -/
structure Config extends Params where
  wellFormed : toParams.WellFormed
deriving DecidableEq, Repr

/-- R8's refusal: an ill-formed record gives no configuration. -/
def Config.ofParams (p : Params) : Option Config :=
  if h : p.WellFormed then some { toParams := p, wellFormed := h } else none

/-- NCNT = 2 + N_POLY, the number of countdown registers (R6, R20). -/
def Config.ncnt (c : Config) : Nat := 2 + c.nPoly

/-- Some well-formed parameters. Used ONLY to show Lean that a configuration exists, so that the open value below
may be declared; nothing can be proved of the open value from it. -/
def Params.someLegal : Params :=
  { nPoly := 2, retrigTicks := 1#8, refNote := 0, bendShift := 0, lut := Vector.replicate 97 0#16, tickPeriod := 1 }

theorem Params.someLegal_wellFormed : Params.someLegal.WellFormed := by decide

/-- OPEN VALUE (R5; decisions D11, D13, D14, D18, D22): RETRIG_TICKS, REF_NOTE, BEND_SHIFT, LUT and TICK_PERIOD of this hardware.
No body: nothing is known of them but that they are well formed. Log entry 1. -/
opaque Config.openParameters [Inhabited Config] : Config

/-- This hardware's configuration: N_POLY = 2 (R6, D12), everything else open. -/
def Config.hardware : Config :=
  let o := @Config.openParameters ⟨{ toParams := Params.someLegal, wellFormed := Params.someLegal_wellFormed }⟩
  { o with nPoly := 2, wellFormed := ⟨by decide, o.wellFormed.2⟩ }

/-- The two issuers of the command port (R33). -/
inductive Issuer where
  | host
  | timer
deriving DecidableEq, Repr, Inhabited

/-- FREE VALUE (R33, R183; 93_implementation_defined.md B9): which issuer goes first when both present a command in
one step. No body; applied to State's counter of such coincidences, so each is free anew. Log entry 2. -/
opaque Config.arbitration : Nat → Issuer

end Sys2Proof
end

