-- ==== Sys2Proof/Machine/State.lean ====
section
/-! DEFINITION. The state of the block: its registers (R20, R23 to R26), the strobe output of the last step
(R32, R34), its configuration (R6, R28), and what stands before its input pins (R32, R33). And the state after
power-on reset (R35). -/

namespace Sys2Proof.Machine

/-- Why the machine stops with a fault. The block raises no exception and has no error signal (R180), so there is
no fault: the type has no constructor. -/
inductive Fault where
deriving DecidableEq, Repr

/-- Why a command has no meaning. -/
inductive Refusal where
  /-- Raised by exec's arm of a command that is not modelled yet. No arm raises it in this model. Safe. -/
  | notModelled (mnemonic : String)
deriving DecidableEq, Repr

/-- What stands before the input pins of the block (R32, R33): the outside world's inputs, as plain data. -/
structure Port where
  /-- The level of rst in this clock and the following ones; low once the list is used up (R200). -/
  rstPin : List Bool
  /-- The command words the host presents, in the order it presents them (R33, R60). -/
  hostQueue : List Word
  /-- The command words the platform timer presents, in its order: one RTTICK a tick (R33, R186). -/
  timerQueue : List Word
  /-- MODEL'S OWN: how many coincidences have been arbitrated; the argument of `Config.arbitration` (log entry 2). -/
  arbCount : Nat
deriving DecidableEq, Repr

/-- The machine: registers, configuration, the strobe output and the inputs. -/
structure State where
  /-- The build-time configuration, visible through the read port; no command changes it (R6, R28). -/
  cfg : Config
  /-- RNG_STATE (R23). -/
  rngState : Half
  /-- RAND[0] (R24). -/
  rand0 : Rand
  /-- RAND[1] (R24). -/
  rand1 : Rand
  /-- DCO_FREQ (R25). -/
  dcoFreq : Half
  /-- CNT[0..NCNT-1] (R20). -/
  cnt : List Count
  /-- STATUS: bit 0 CHG, bit 1 DTICK (R26). -/
  status : BitVec 2
  /-- The drum_step output after the last step (R32, R105): an output, not state a command reads (R34). -/
  drumStep : Bool
  /-- The inputs (R32, R33). -/
  port : Port
deriving DecidableEq, Repr

/-- Nothing presented, rst low. -/
def Port.quiet : Port := { rstPin := [], hostQueue := [], timerQueue := [], arbCount := 0 }

/-- The machine right after power-on reset (R35, R200), with this hardware's configuration. -/
def State.reset : State :=
  { cfg := Config.hardware
    rngState := rngSeed
    rand0 := 0#12
    rand1 := 0#12
    dcoFreq := 0#16
    cnt := List.replicate Config.hardware.ncnt 0#8
    status := 0#2
    drumStep := false
    port := Port.quiet }

end Sys2Proof.Machine
end

