-- ==== Sys2Proof/Machine/Flags.lean ====
section
/-! DEFINITION. STATUS and its two fields (R26), and what a tick writes there (R105, R108). -/

namespace Sys2Proof.Machine

/-- STATUS.CHG, bit 0 (R26). -/
def State.chg (s : State) : Bool := s.status.getLsbD 0

/-- STATUS.DTICK, bit 1 (R26). -/
def State.dtick (s : State) : Bool := s.status.getLsbD 1

/-- The 2-bit word with the given fields (R26). -/
def statusWord (chg dtick : Bool) : BitVec 2 := BitVec.ofBool dtick ++ BitVec.ofBool chg

/-- R105: DTICK <- drum, CHG <- any or drum. -/
def tickStatus (any drum : Bool) : BitVec 2 := statusWord (any || drum) drum

end Sys2Proof.Machine
end

