-- ==== Sys2Proof/Machine/Ops.lean ====
section
/-! DEFINITION. The named operations over the registers, the table ROM, the read port and the input pins, which
the meanings and the step share. The block has no writable memory (R12, R175) and no exceptions (R180, R182), so
there is no memory write, no taking of an exception and no return from one. -/

namespace Sys2Proof.Machine

open Host (Outcome)

/-! ## Writing one register (R12) -/

def State.withRng (s : State) (state : Half) (r0 r1 : Rand) : State :=
  { s with rngState := state, rand0 := r0, rand1 := r1 }

def State.withDcoFreq (s : State) (v : Half) : State := { s with dcoFreq := v }

def State.withCnt (s : State) (v : List Count) : State := { s with cnt := v }

def State.withStatus (s : State) (v : BitVec 2) : State := { s with status := v }

def State.withDrumStep (s : State) (v : Bool) : State := { s with drumStep := v }

def State.withPort (s : State) (p : Port) : State := { s with port := p }

/-- A command completes in its step (R13, R34), with the drum_step strobe of that step: high only for an RTTICK
that steps the drums (R32). -/
def complete (drum : Bool) (s : State) : Outcome State Fault Refusal := .next (s.withDrumStep drum)

/-! ## Countdowns (R20, R27, R100, R105) -/

/-- R105, R106: one countdown over one tick; zero stays zero. -/
def tickCount (c : Count) : Count := if c = 0#8 then 0#8 else c - 1#8

/-- Some countdown is armed (`any` of R105). -/
def anyArmed (cnt : List Count) : Bool := cnt.any (fun c => c != 0#8)

/-- R100, R102: CNT[id] <- RETRIG_TICKS when id < NCNT, else nothing. -/
def State.arm (s : State) (id : Nat) : State :=
  if id < s.cfg.ncnt then s.withCnt (s.cnt.set id s.cfg.retrigTicks) else s

/-- ARMED[k] (R27); no counter, not armed. -/
def State.armed (s : State) (k : Nat) : Bool :=
  match s.cnt[k]? with
  | some c => c != 0#8
  | none => false

/-- The number whose bits are given, bit 0 first. -/
def bitsToNat : List Bool → Nat
  | [] => 0
  | b :: bs => b.toNat + 2 * bitsToNat bs

/-- The ARMED word of the read port: bit k = ARMED[k], other bits zero (R30). -/
def State.armedWord (s : State) : Half := BitVec.ofNat 16 (bitsToNat (s.cnt.map (fun c => c != 0#8)))

/-! ## The table ROM (R50, R51) -/

/-- MemRead(i, 2) for i in 0..96: the index is given with the proof that it is in range, so a read outside has no
meaning (R51: a model may leave it undefined). -/
def romRead (c : Config) (i : Nat) (h : i ≤ 96) : Half := c.lut[i]'(by omega)

/-! ## The read port (R30, R31) -/

/-- rd_addr 0x00 to 0x0F: the registers and the configuration (R28, R30). -/
def readRegister (s : State) : Nat → Half
  | 0x0 => s.rngState
  | 0x1 => s.rand0.setWidth 16
  | 0x2 => s.rand1.setWidth 16
  | 0x3 => s.dcoFreq
  | 0x4 => s.status.setWidth 16
  | 0x5 => s.armedWord
  | 0x6 => s.cfg.retrigTicks.setWidth 16
  | 0x7 => BitVec.ofNat 16 s.cfg.nPoly
  | 0x8 => BitVec.ofNat 16 s.cfg.refNote
  | 0x9 => BitVec.ofNat 16 s.cfg.bendShift
  | _ => 0#16

/-- rd_addr 0x10 + k: CNT[k] if k < NCNT, else 0 (R30). -/
def readCountdown (s : State) (k : Nat) : Half := ((s.cnt[k]?).getD 0#8).setWidth 16

/-- rd_addr 0x80 + i: LUT[i] if i is an index of the table, else 0 (R30). -/
def readTable (c : Config) (i : Nat) : Half := if h : i ≤ 96 then romRead c i h else 0#16

/-- rd_data for the address rd_addr, in the state after the last completed step (R30, R31): a read issued in the
clock of a command is a read of the state that command's step begins with. -/
def readPort (s : State) (addr : BitVec 8) : Half :=
  if addr.toNat < 0x10 then readRegister s addr.toNat
  else if addr.toNat < 0x20 then readCountdown s (addr.toNat - 0x10)
  else if addr.toNat < 0x80 then 0#16
  else readTable s.cfg (addr.toNat - 0x80)

/-- The output ports that are driven continuously, and the strobe (R32). -/
structure Outputs where
  dcoFreq : Half
  rand0 : Rand
  rand1 : Rand
  /-- Bit k is ARMED[k]; the port is the low NCNT bits. -/
  armed : Half
  chg : Bool
  drumStep : Bool
deriving DecidableEq, Repr

/-- The outputs in a state (R32). -/
def State.outputs (s : State) : Outputs :=
  { dcoFreq := s.dcoFreq, rand0 := s.rand0, rand1 := s.rand1, armed := s.armedWord, chg := s.chg
    drumStep := s.drumStep }

/-! ## The two resets -/

/-- The writes of the power-on reset step (R35, R200); the configuration and the pins are not registers it writes. -/
def State.powerOn (s : State) : State :=
  { s with rngState := 0x002A#16, rand0 := 0#12, rand1 := 0#12, dcoFreq := 0#16,
           cnt := List.replicate s.cfg.ncnt 0#8, status := 0#2, drumStep := false }

/-- The writes of the session reset (R171): every countdown and STATUS, nothing else. -/
def State.sessionReset (s : State) : State :=
  (s.withCnt (List.replicate s.cfg.ncnt 0#8)).withStatus 0#2

/-! ## The input pins (R32, R33) -/

/-- The level of rst in this clock. -/
def Port.rst (p : Port) : Bool := p.rstPin.headD false

/-- The pins of the next clock: the rst waveform moves on by one. -/
def Port.nextClock (p : Port) : Port := { p with rstPin := p.rstPin.tail }

/-- The command the port takes in a step with rst low, and what is left before the pins: the only issuer's command
if one presents, either issuer's, as the free value says, if both do (R33, R183), none if neither does. -/
def Port.takeCommand (p : Port) : Option Word × Port :=
  match p.hostQueue, p.timerQueue with
  | [], [] => (none, p)
  | h :: hs, [] => (some h, { p with hostQueue := hs })
  | [], t :: ts => (some t, { p with timerQueue := ts })
  | h :: hs, t :: ts =>
    match Config.arbitration p.arbCount with
    | .host => (some h, { p with hostQueue := hs, arbCount := p.arbCount + 1 })
    | .timer => (some t, { p with timerQueue := ts, arbCount := p.arbCount + 1 })

end Sys2Proof.Machine
end

