-- ==== Sys2Proof/Machine/Control.lean ====
section
/-! DEFINITION. The control commands: NOP, SRESET and the ten reserved opcodes (43_control.md). -/

namespace Sys2Proof.Machine

open Host (Outcome)

/-- NOP (R170): no register is written; drum_step is low. -/
def execNop (s : State) : Outcome State Fault Refusal := complete false s

/-- SRESET (R171): clear every countdown and STATUS. -/
def execSreset (s : State) : Outcome State Fault Refusal := complete false s.sessionReset

/-! The reserved opcodes execute as NOP (R77, R172). -/

/-- Opcode 0x6 (R172). -/
def execReserved6 (s : State) : Outcome State Fault Refusal := complete false s

/-- Opcode 0x7 (R172). -/
def execReserved7 (s : State) : Outcome State Fault Refusal := complete false s

/-- Opcode 0x8 (R172). -/
def execReserved8 (s : State) : Outcome State Fault Refusal := complete false s

/-- Opcode 0x9 (R172). -/
def execReserved9 (s : State) : Outcome State Fault Refusal := complete false s

/-- Opcode 0xA (R172). -/
def execReservedA (s : State) : Outcome State Fault Refusal := complete false s

/-- Opcode 0xB (R172). -/
def execReservedB (s : State) : Outcome State Fault Refusal := complete false s

/-- Opcode 0xC (R172). -/
def execReservedC (s : State) : Outcome State Fault Refusal := complete false s

/-- Opcode 0xD (R172). -/
def execReservedD (s : State) : Outcome State Fault Refusal := complete false s

/-- Opcode 0xE (R172). -/
def execReservedE (s : State) : Outcome State Fault Refusal := complete false s

/-- Opcode 0xF (R172). -/
def execReservedF (s : State) : Outcome State Fault Refusal := complete false s

end Sys2Proof.Machine
end

