-- ==== Sys2Proof/Machine/Operands.lean ====
section
/-! DEFINITION. What the commands make of their operands: the drum modes of RTTICK (R107) and, for DCOCVT, the
pitch, its octave reduction and its split into table index and weight (R121 to R123). -/

namespace Sys2Proof.Machine

/-- R105, R107: the drum channels are stepped when MODE is 7, 8 or 9. -/
def isDrumMode (mode : Nat) : Bool := mode == 7 || mode == 8 || mode == 9

/-- a >>a n, the arithmetic right shift floor(a / 2^n) (R11). -/
def sar (a : Int) (n : Nat) : Int := a / 2 ^ n

/-- The fixed-point pitch p (R121). -/
def pitch (c : Config) (note : Nat) (bend : Int) : Int :=
  note * semitone + sar bend c.bendShift - c.refNote * semitone

/-- The sub-octave position q = p mod 1536 (R122, closed form). -/
def subOctave (p : Int) : Nat := (p % octave).toNat

/-- The octave count k: p div 1536 if p >= 0, and 0 if p < 0 (R122, closed form). -/
def octaveCount (p : Int) : Nat := if p < 0 then 0 else (p / octave).toNat

/-- R122: q lies in 0..1535. -/
theorem subOctave_lt (p : Int) : subOctave p < 1536 := by
  unfold subOctave octave
  omega

/-- The table index i = q >> 4, 0..95 (R123). -/
def tableIndex (p : Int) : Fin 96 := ⟨subOctave p / 16, by have := subOctave_lt p; omega⟩

/-- The interpolation weight w = q & 0xF (R123). -/
def weight (p : Int) : Nat := subOctave p % 16

/-! The two loops of R122 as they are written there, each with a bound on its runs. -/

/-- `while p < 0: p = p + OCTAVE`, at most `fuel` runs. -/
def raiseOctaves : Nat → Int → Int
  | 0, p => p
  | fuel + 1, p => if p < 0 then raiseOctaves fuel (p + octave) else p

/-- `while p >= OCTAVE: p = p - OCTAVE; k = k + 1`, at most `fuel` runs. -/
def lowerOctaves : Nat → Int → Nat → Int × Nat
  | 0, p, k => (p, k)
  | fuel + 1, p, k => if octave ≤ p then lowerOctaves fuel (p - octave) (k + 1) else (p, k)

end Sys2Proof.Machine
end

