-- ==== Sys2Proof/Machine/Dco.lean ====
section
/-! DEFINITION. The DCO interpolator: DCOCVT (41_dco.md). -/

namespace Sys2Proof.Machine

open Host (Outcome)

/-- R125: y = a - (((a - b) * w) >> 4), exact, rounding toward a. For a >= b, which R124 gives, a - b is the
difference. -/
def interpolate (a b w : Nat) : Nat := a - ((a - b) * w) / 16

/-- The interpolated count y of a pitch, before the octave shift (R123 to R125). -/
def interpolatedCount (c : Config) (p : Int) : Nat :=
  let i := tableIndex p
  interpolate (romRead c i.val (by omega)).toNat (romRead c (i.val + 1) (by omega)).toNat (weight p)

/-- The DCO count of a pitch: y >> k (R126). -/
def dcoCount (c : Config) (p : Int) : Half := BitVec.ofNat 16 (interpolatedCount c p >>> octaveCount p)

/-- DCOCVT (R120): DCO_FREQ <- the count of the note and the bend. -/
def execDcocvt (note : Nat) (bend : Int) (s : State) : Outcome State Fault Refusal :=
  complete false (s.withDcoFreq (dcoCount s.cfg (pitch s.cfg note bend)))

end Sys2Proof.Machine
end

