-- ==== Sys2Proof/Machine/Retrigger.lean ====
section
/-! DEFINITION. The retrigger countdown unit: RTARM and RTTICK (40_retrigger.md). -/

namespace Sys2Proof.Machine

open Host (Outcome)

/-- RTARM (R100 to R102): load the countdown with RETRIG_TICKS; an id not below NCNT changes nothing. -/
def execRtarm (id : Nat) (s : State) : Outcome State Fault Refusal :=
  complete false (s.arm id)

/-- RTTICK (R105 to R108): decrement every nonzero countdown, report in STATUS, strobe the drums. -/
def execRttick (mode : Nat) (s : State) : Outcome State Fault Refusal :=
  complete (isDrumMode mode)
    ((s.withCnt (s.cnt.map tickCount)).withStatus (tickStatus (anyArmed s.cnt) (isDrumMode mode)))

end Sys2Proof.Machine
end

