-- ==== Sys2Proof/Machine/Rng.lean ====
section
/-! DEFINITION. The pseudorandom generator: RNGDRAW (42_rng.md). -/

namespace Sys2Proof.Machine

open Host (Outcome)

/-- R151: one LFSR step; the mask is applied exactly when the bit shifted out is 1. -/
def lfsr (x : Half) : Half := if x.getLsbD 0 then (x >>> 1) ^^^ rngMask else x >>> 1

/-- R152: a derived value is s[15:4]. -/
def derivedValue (x : Half) : Rand := x.extractLsb' 4 12

/-- RNGDRAW (R150, R153): two steps; RAND[0] from the first, RAND[1] from the second. -/
def execRngdraw (s : State) : Outcome State Fault Refusal :=
  let s1 := lfsr s.rngState
  let s2 := lfsr s1
  complete false (s.withRng s2 (derivedValue s1) (derivedValue s2))

end Sys2Proof.Machine
end

