-- ==== Sys2Proof/Machine/Step.lean ====
section
/-! DEFINITION. One step of the block (R13): a power-on reset step while rst is high (R200); else the acceptance of
one command word (R22, R32), if one is presented; else nothing (R191). -/

namespace Sys2Proof.Machine

/-- A clock with no command holds every register; the strobe is low in it (R32, R191). -/
def State.idle (s : State) : State := s.withDrumStep false

def step (s : State) : Host.Outcome State Fault Refusal :=
  if s.port.rst then .next (s.withPort s.port.nextClock).powerOn
  else
    match s.port.nextClock.takeCommand with
    | (none, p) => .next (s.withPort p).idle
    | (some w, p) => exec (decode w) (s.withPort p)

/-- `s` with the word presented by the host in this clock, ahead of what it presents later: rst is low in this clock
and the timer presents nothing, so the next step takes exactly this word. -/
def State.withFetchWord (s : State) (nbits w : Nat) : State :=
  s.withPort { s.port with
    rstPin := false :: s.port.rstPin.tail
    hostQueue := BitVec.ofNat 32 (w % 2 ^ nbits) :: s.port.hostQueue
    timerQueue := [] }

end Sys2Proof.Machine
end

