-- ==== Sys2Proof/Machine/Assembler.lean ====
section
/-! DEFINITION. The assembler of R80 to R82: source lines, the range checks, the pseudo-instructions and the
canonical words. Text is a list of characters. -/

namespace Sys2Proof.Machine

/-! ## From a source line's meaning to a command (R80, R82) -/

/-- The natural number an operand is, when it lies in 0..`max`; an operand outside its range is rejected (R80). -/
def natOperand (max : Nat) (v : Int) : Option Nat :=
  if 0 ≤ v ∧ v ≤ max then some v.toNat else none

/-- `DCOCVT note, bend` with note in 0..127 and bend in -8192..8191 (R80). -/
def assembleDcocvt (note bend : Int) : Option Instr :=
  if -8192 ≤ bend ∧ bend ≤ 8191 then (natOperand 127 note).map (fun n => .dcocvt n bend) else none

/-- R80, R82: the command a source line stands for, on a block with `nPoly` poly slots; none where the assembler
rejects an operand outside its range. -/
def expand (nPoly : Nat) : Asm → Option Instr
  | .nop => some .nop
  | .dcocvt note bend => assembleDcocvt note bend
  | .rngdraw => some .rngdraw
  | .rtarm id => (natOperand 15 id).map .rtarm
  | .rttick mode => (natOperand 15 mode).map .rttick
  | .sreset => some .sreset
  | .rtarmMono v => (natOperand 1 v).map .rtarm
  | .rtarmPoly s => if s < nPoly then (natOperand 13 s).map (fun n => .rtarm (2 + n)) else none
  | .dcocvtNote note => assembleDcocvt note 0
  | .rttickPlain => some (.rttick 0)

/-- The canonical word of a source line (R80, R81). -/
def assemble (nPoly : Nat) (a : Asm) : Option Word := (expand nPoly a).map encode

/-! ## Reading a line of text (R80) -/

/-- A line without its comment: `;` starts one. -/
def dropComment (line : List Char) : List Char := line.takeWhile (· != ';')

/-- A space or a tab. -/
def isBlank (c : Char) : Bool := c == ' ' || c == '\t'

/-- The words of a line: blanks separate, a comma is a word of its own. `cur` holds the word being read, reversed. -/
def tokensFrom : List Char → List Char → List (List Char)
  | cur, [] => if cur.isEmpty then [] else [cur.reverse]
  | cur, c :: cs =>
    let before := if cur.isEmpty then [] else [cur.reverse]
    if isBlank c then before ++ tokensFrom [] cs
    else if c == ',' then before ++ [','] :: tokensFrom [] cs
    else tokensFrom (c :: cur) cs

/-- The value of a digit, hexadecimal letters in either case. -/
def digitValue (c : Char) : Option Nat :=
  let n := c.toNat
  if 48 ≤ n ∧ n ≤ 57 then some (n - 48)
  else if 65 ≤ n ∧ n ≤ 70 then some (n - 55)
  else if 97 ≤ n ∧ n ≤ 102 then some (n - 87)
  else none

/-- The number a list of digits of the given base continues `acc` to. -/
def digitsFrom (base : Nat) : Nat → List Char → Option Nat
  | acc, [] => some acc
  | acc, c :: cs =>
    match digitValue c with
    | some d => if d < base then digitsFrom base (acc * base + d) cs else none
    | none => none

/-- An unsigned operand, decimal or `0x` hexadecimal (R80); at least one digit. -/
def unsignedOperand : List Char → Option Nat
  | [] => none
  | ['0', 'x'] => none
  | '0' :: 'x' :: ds => digitsFrom 16 0 ds
  | ds => digitsFrom 10 0 ds

/-- An operand, with an optional minus sign (R80 writes bends such as -1). -/
def operand : List Char → Option Int
  | '-' :: ds => (unsignedOperand ds).map (fun n => -(n : Int))
  | ds => (unsignedOperand ds).map (fun n => (n : Int))

/-- The source line that words are, by the syntax of R80 and R82; none where they are no such line. -/
def parseTokens : List (List Char) → Option Asm
  | [['N', 'O', 'P']] => some .nop
  | [['R', 'N', 'G', 'D', 'R', 'A', 'W']] => some .rngdraw
  | [['S', 'R', 'E', 'S', 'E', 'T']] => some .sreset
  | [['R', 'T', 'T', 'I', 'C', 'K']] => some .rttickPlain
  | [['R', 'T', 'T', 'I', 'C', 'K'], x] => (operand x).map .rttick
  | [['R', 'T', 'A', 'R', 'M'], x] => (operand x).map .rtarm
  | [['R', 'T', 'A', 'R', 'M', '.', 'M'], x] => (operand x).map .rtarmMono
  | [['R', 'T', 'A', 'R', 'M', '.', 'P'], x] => (operand x).map .rtarmPoly
  | [['D', 'C', 'O', 'C', 'V', 'T'], x] => (operand x).map .dcocvtNote
  | [['D', 'C', 'O', 'C', 'V', 'T'], x, [','], y] =>
    match operand x, operand y with
    | some note, some bend => some (.dcocvt note bend)
    | _, _ => none
  | _ => none

/-- What a line of text assembles to: `some []` for a blank or comment line, one word for a command, none for a
line the assembler rejects. -/
def assembleLine (nPoly : Nat) (line : List Char) : Option (List Word) :=
  match tokensFrom [] (dropComment line) with
  | [] => some []
  | toks => (parseTokens toks).bind (fun a => (assemble nPoly a).map (fun w => [w]))

/-- A text of several lines, one command a line (R80). -/
def assembleLines (nPoly : Nat) : List (List Char) → Option (List Word)
  | [] => some []
  | l :: ls =>
    match assembleLine nPoly l, assembleLines nPoly ls with
    | some ws, some rest => some (ws ++ rest)
    | _, _ => none

end Sys2Proof.Machine
end

