-- ==== Sys2Proof/Machine/HostContract.lean ====
section
/-! DEFINITION. What the spec says the surrounding software does with the block: "Host contract, not block
behaviour" (R103, R111, R158, R173), and when the platform timer's ticks come (R207). No step of the block depends on
anything here; the surrounding software itself is out of scope (R4). -/

namespace Sys2Proof.Machine

/-! ## When the host arms a countdown (R103) -/

/-- The countdown of a mono channel: 0 for channels 0, 1, 2 and 1 for channel 3. -/
def monoCountdown (channel : Nat) : Option Nat :=
  if channel ≤ 2 then some 0 else if channel = 3 then some 1 else none

/-- On NoteOn, before the push: the stack is non-empty and legato is off. -/
def armsOnNoteOn (stackEmpty legato : Bool) : Bool := !stackEmpty && !legato

/-- On NoteOff: the new top note differs from the popped-away top and legato is off. -/
def armsOnNoteOff (topDiffers legato : Bool) : Bool := topDiffers && !legato

/-- The countdown the host arms when the allocator assigns poly slot `slot` on channel 4: that slot's, if it
already held a note. -/
def polyCountdown (slot : Nat) (heldNote : Bool) : Option Nat := if heldNote then some (2 + slot) else none

/-! ## The gates a renderer derives (R111, R158) -/

/-- Modes 0, 1 and 2/3: gate = !retriggerArmed || !previousGate. -/
def edgeForcingGate (armed previousGate : Bool) : Bool := !armed || !previousGate

/-- Mode 4: gate = !retriggerArmed. -/
def polyGate (armed : Bool) : Bool := !armed

/-- Mode 6: cv[i] = RAND[i], for i in 0..1. -/
def State.randomCv (s : State) (i : Fin 2) : Rand := if i = 0 then s.rand0 else s.rand1

/-- Mode 6: gate[i] is RAND[i]'s least significant bit. -/
def State.randomGate (s : State) (i : Fin 2) : Bool := (s.randomCv i).getLsbD 0

/-! ## When the router issues the session reset (R173) -/

/-- The channel differs from the current mode, unless the change is between 2 and 3 in either direction. -/
def issuesSessionReset (mode channel : Nat) : Bool :=
  channel != mode && !((mode == 2 && channel == 3) || (mode == 3 && channel == 2))

/-! ## When the ticks come (R186, R207) -/

/-- The time, after an arm, of the n-th tick (n from 1) of an exact timer whose first tick comes `first` after it. -/
def tickTime (c : Config) (first n : Nat) : Nat := first + (n - 1) * c.tickPeriod

end Sys2Proof.Machine
end

