-- ==== Sys2Proof/Safety.lean ====
section
/-! DEFINITION. What counts as a sound state and a safe run. -/

namespace Sys2Proof.Machine

open Host (Outcome)

/-- What every reachable state of the block has. -/
structure State.Inv (s : State) : Prop where
  /-- The countdown file holds NCNT registers (R20). -/
  fileSize : s.cnt.length = s.cfg.ncnt
  /-- No countdown exceeds the duration it is armed to (R101, R106; decision D26). -/
  countsBounded : ∀ c ∈ s.cnt, c ≤ s.cfg.retrigTicks
  /-- The LFSR state is never 0 (R155). -/
  rngNonzero : s.rngState ≠ 0#16
  /-- A stepped drum is a change (R105, R108). -/
  drumIsChange : s.dtick = true → s.chg = true
  /-- The strobe is high only after an RTTICK that recorded a drum step (R32, R105). -/
  strobeRecorded : s.drumStep = true → s.dtick = true
  /-- DCO_FREQ never exceeds the largest table entry (R125, R126). -/
  dcoBounded : s.dcoFreq ≤ s.cfg.lut[0]

/-- The two derived values belong to the LFSR state: either nothing has been drawn since power-on, or they are the
values of the draw that left the state (R150, R157). -/
def State.RandFromDraw (s : State) : Prop :=
  (s.rngState = rngSeed ∧ s.rand0 = 0#12 ∧ s.rand1 = 0#12) ∨
    ∃ x : Half, s.rngState = lfsr (lfsr x) ∧ s.rand0 = derivedValue (lfsr x) ∧ s.rand1 = derivedValue s.rngState

/-- The commands of a list, one a step (R60, R174). -/
def runCommands : List Instr → State → Outcome State Fault Refusal
  | [], s => .next s
  | i :: is, s =>
    match exec i s with
    | .next t => runCommands is t
    | .fault r => .fault r
    | .refused r => .refused r

/-- How many RNGDRAWs a command list holds. -/
def drawCount (is : List Instr) : Nat := is.countP (fun i => i == .rngdraw)

/-- How many RTTICKs a command list holds. -/
def tickTotal (is : List Instr) : Nat :=
  is.countP (fun i => match i with
    | .rttick _ => true
    | .nop | .dcocvt _ _ | .rngdraw | .rtarm _ | .sreset | .reserved6 | .reserved7 | .reserved8 | .reserved9
    | .reservedA | .reservedB | .reservedC | .reservedD | .reservedE | .reservedF => false)

/-- A run that never stops: after any number of steps there is a next state. -/
def NeverStops (s : State) : Prop := ∀ n : Nat, ∃ t : State, Sys2Proof.core.run n s = .next t

end Sys2Proof.Machine
end

