-- ==== Sys2Proof/Certificates/Slice0/Obligations.lean ====
section
/-! DEFINITION. The statements about the model. Each docstring names the rule of spec/ it states. -/

open Sys2Proof Sys2Proof.Machine

/-! ## Reset (70_reset_and_hazards.md) -/

/-- R200: in every clock in which rst is high the step is the power-on reset: every register at its value, the strobe
low, no command taken, whatever is presented. That both queues and the arbitration counter stay as they are, so that
what they hold is taken after rst falls, is the model's choice (log entry 3; log entry 2 for the counter). -/
def Obligations.PowerOnResetWritesEveryRegister : Prop :=
  ∀ s : State, s.port.rstPin.head? = some true →
    ∃ t : State, step s = .next t ∧
      t.rngState = 0x002A#16 ∧ t.rand0 = 0#12 ∧ t.rand1 = 0#12 ∧ t.dcoFreq = 0#16 ∧
      t.cnt.length = s.cfg.ncnt ∧ (∀ c ∈ t.cnt, c = 0#8) ∧
      t.chg = false ∧ t.dtick = false ∧ t.drumStep = false ∧ t.cfg = s.cfg ∧
      t.port.rstPin = s.port.rstPin.tail ∧ t.port.hostQueue = s.port.hostQueue ∧
      t.port.timerQueue = s.port.timerQueue ∧ t.port.arbCount = s.port.arbCount

/-- R35, D12: the model's reset state is what a power-on reset step of this hardware leaves, once nothing is
presented; it has the four countdowns of N_POLY = 2. -/
def Obligations.ResetStateIsPowerOnState : Prop :=
  (∀ s : State, s.cfg = Config.hardware → s.port.rstPin.head? = some true →
    ∃ t : State, step s = .next t ∧ { t with port := Port.quiet } = State.reset) ∧
  State.reset.cfg.nPoly = 2 ∧ State.reset.cnt = [0#8, 0#8, 0#8, 0#8]

/-! ## The control commands (43_control.md) -/

/-- R170: NOP writes no register; the strobe is low. Its words are all those of opcode 0. -/
def Obligations.NopLeavesState : Prop :=
  encode .nop = 0x00000000#32 ∧
  ∀ (w : Word) (s : State), w.extractLsb' 28 4 = 0x0#4 →
    decode w = .nop ∧ exec .nop s = .next { s with drumStep := false }

/-- R172, R77: every word of the opcodes 0x6 to 0xF writes no register and no flag; the strobe is low. -/
def Obligations.ReservedOpcodesExecuteAsNop : Prop :=
  (∀ (w : Word) (s : State), 0x6#4 ≤ w.extractLsb' 28 4 →
    exec (decode w) s = .next { s with drumStep := false }) ∧
  (∀ (s : State) (i : Instr),
    i ∈ [Instr.reserved6, .reserved7, .reserved8, .reserved9, .reservedA, .reservedB, .reservedC, .reservedD,
      .reservedE, .reservedF] → exec i s = .next { s with drumStep := false }) ∧
  (∀ w : Word, 0x6#4 ≤ w.extractLsb' 28 4 →
    decode w ∈ [Instr.reserved6, .reserved7, .reserved8, .reserved9, .reservedA, .reservedB, .reservedC, .reservedD,
      .reservedE, .reservedF])

/-- R171: SRESET clears every countdown and STATUS and keeps RNG_STATE, RAND and DCO_FREQ. -/
def Obligations.SresetClearsCountdownsAndStatus : Prop :=
  encode .sreset = 0x50000000#32 ∧
  ∀ (w : Word) (s : State), w.extractLsb' 28 4 = 0x5#4 →
    decode w = .sreset ∧
    ∃ t : State, exec .sreset s = .next t ∧
      t.cnt.length = s.cfg.ncnt ∧ (∀ c ∈ t.cnt, c = 0#8) ∧ t.chg = false ∧ t.dtick = false ∧ t.drumStep = false ∧
      t.rngState = s.rngState ∧ t.rand0 = s.rand0 ∧ t.rand1 = s.rand1 ∧ t.dcoFreq = s.dcoFreq ∧
      t.cfg = s.cfg ∧ t.port = s.port

/-! ## The retrigger countdown unit (40_retrigger.md) -/

/-- R100, R101, R102: RTARM loads countdown ID with RETRIG_TICKS whatever it held, when ID < NCNT; otherwise, and
everywhere else, nothing changes. The premise is the invariant that the file holds NCNT registers. -/
def Obligations.RtarmLoadsRetrigTicks : Prop :=
  ∀ (w : Word) (s : State), w.extractLsb' 28 4 = 0x3#4 → s.cnt.length = s.cfg.ncnt →
    decode w = .rtarm (w.extractLsb' 0 4).toNat ∧
    encode (.rtarm (w.extractLsb' 0 4).toNat) = 0x30000000#32 ||| (w.extractLsb' 0 4).setWidth 32 ∧
    ∃ t : State, exec (.rtarm (w.extractLsb' 0 4).toNat) s = .next t ∧
      (∀ k : Nat, t.cnt[k]? =
        if k = (w.extractLsb' 0 4).toNat ∧ k < s.cfg.ncnt then some s.cfg.retrigTicks else s.cnt[k]?) ∧
      (s.cfg.ncnt ≤ (w.extractLsb' 0 4).toNat → t.cnt = s.cnt) ∧
      t.status = s.status ∧ t.drumStep = false ∧ t.rngState = s.rngState ∧ t.rand0 = s.rand0 ∧ t.rand1 = s.rand1 ∧
      t.dcoFreq = s.dcoFreq ∧ t.cfg = s.cfg ∧ t.port = s.port

/-- R105 to R108: RTTICK decrements every nonzero countdown in every mode, zero stays zero; DTICK and the strobe are
high exactly in modes 7, 8, 9; CHG is 1 exactly when a countdown was decremented or the drums stepped. -/
def Obligations.RttickDecrementsAndReports : Prop :=
  ∀ (w : Word) (s : State), w.extractLsb' 28 4 = 0x4#4 →
    decode w = .rttick (w.extractLsb' 0 4).toNat ∧
    encode (.rttick (w.extractLsb' 0 4).toNat) = 0x40000000#32 ||| (w.extractLsb' 0 4).setWidth 32 ∧
    ∃ t : State, exec (.rttick (w.extractLsb' 0 4).toNat) s = .next t ∧
      t.cnt.length = s.cnt.length ∧
      (∀ (k : Nat) (c : Count), s.cnt[k]? = some c →
        ∃ c' : Count, t.cnt[k]? = some c' ∧ (c = 0#8 → c' = 0#8) ∧ (c ≠ 0#8 → c'.toNat + 1 = c.toNat)) ∧
      (t.dtick = true ↔ w.extractLsb' 0 4 = 7#4 ∨ w.extractLsb' 0 4 = 8#4 ∨ w.extractLsb' 0 4 = 9#4) ∧
      (t.chg = true ↔ (∃ c ∈ s.cnt, c ≠ 0#8) ∨
        w.extractLsb' 0 4 = 7#4 ∨ w.extractLsb' 0 4 = 8#4 ∨ w.extractLsb' 0 4 = 9#4) ∧
      t.drumStep = t.dtick ∧ t.rngState = s.rngState ∧ t.rand0 = s.rand0 ∧ t.rand1 = s.rand1 ∧
      t.dcoFreq = s.dcoFreq ∧ t.cfg = s.cfg ∧ t.port = s.port

/-- R109: after an RTARM of an in-range ID and m RTTICKs, with any other commands among them but no RTARM of that ID
and no SRESET, CNT[ID] = max(D - m, 0). -/
def Obligations.ArmedForExactlyRetrigTicks : Prop :=
  ∀ (s : State) (id : Nat) (is : List Instr), s.cnt.length = s.cfg.ncnt → id < s.cfg.ncnt →
    Instr.rtarm id ∉ is → Instr.sreset ∉ is →
    ∃ (t : State) (c : Count), runCommands (.rtarm id :: is) s = .next t ∧ t.cnt[id]? = some c ∧
      c.toNat = max (s.cfg.retrigTicks.toNat - tickTotal is) 0

/-- R110: a step changes a countdown only by power-on reset (to 0), by RTARM of its id (to RETRIG_TICKS), by SRESET (to
0), or by a tick, which lowers it by one. -/
def Obligations.CountdownChangesOnlyByRule : Prop :=
  ∀ (s t : State) (k : Nat) (c c' : Count), s.cnt.length = s.cfg.ncnt → step s = .next t →
    s.cnt[k]? = some c → t.cnt[k]? = some c' → c' ≠ c →
    (s.port.rst = true ∧ c' = 0#8) ∨
    (s.port.rst = false ∧ ∃ (w : Word) (p : Port), s.port.nextClock.takeCommand = (some w, p) ∧
      ((decode w = .rtarm k ∧ c' = s.cfg.retrigTicks) ∨ (decode w = .sreset ∧ c' = 0#8) ∨
        ((∃ mode, decode w = .rttick mode) ∧ c'.toNat + 1 = c.toNat)))

/-! ## The DCO interpolator (41_dco.md) -/

/-- R120 to R126: DCOCVT writes the interpolated, octave-shifted count. q and k are the sub-octave position and the
octave count of the pitch p: the multiples of 1536 counted when p >= 0, and not counted when p < 0. -/
def Obligations.DcocvtWritesInterpolatedCount : Prop :=
  ∀ (w : Word) (s : State), w.extractLsb' 28 4 = 0x1#4 →
    let note := (w.extractLsb' 14 7).toNat;
    let bend := (w.extractLsb' 0 14).toInt;
    let p : Int := note * 128 + bend / 2 ^ s.cfg.bendShift - s.cfg.refNote * 128;
    decode w = .dcocvt note bend ∧
    encode (.dcocvt note bend) =
      0x10000000#32 ||| ((w.extractLsb' 14 7).setWidth 32 <<< 14) ||| (w.extractLsb' 0 14).setWidth 32 ∧
    ∃ t : State, exec (.dcocvt note bend) s = .next t ∧
      (∃ q k : Nat, q < 1536 ∧
        ((0 ≤ p ∧ p = 1536 * (k : Int) + q) ∨ (p < 0 ∧ k = 0 ∧ ∃ n : Nat, p + 1536 * (n : Int) = q)) ∧
        ∃ a b : Half, s.cfg.lut[q / 16]? = some a ∧ s.cfg.lut[q / 16 + 1]? = some b ∧
          t.dcoFreq.toNat = (a.toNat - ((a.toNat - b.toNat) * (q % 16)) / 2 ^ 4) / 2 ^ k) ∧
      t.cnt = s.cnt ∧ t.status = s.status ∧ t.drumStep = false ∧ t.rngState = s.rngState ∧ t.rand0 = s.rand0 ∧
      t.rand1 = s.rand1 ∧ t.cfg = s.cfg ∧ t.port = s.port

/-- R122: the two loops reach the closed form, for every pitch and every bound on their runs that is enough; and a
pitch below the reference gives the count of the pitch some octaves above it that lies in 0..1535. -/
def Obligations.OctaveLoopsMeetClosedForm : Prop :=
  (∀ (p : Int) (up down : Nat), -(1536 * (up : Int)) ≤ p → p < 1536 * (down + 1 : Int) →
    lowerOctaves down (raiseOctaves up p) 0 = ((subOctave p : Int), octaveCount p)) ∧
  (∀ p : Int, (subOctave p : Int) = p % 1536 ∧ (0 ≤ p → (octaveCount p : Int) = p / 1536) ∧
    (p < 0 → octaveCount p = 0)) ∧
  (∀ (c : Config) (p : Int) (n : Nat), p < 0 → 0 ≤ p + 1536 * n → p + 1536 * n < 1536 →
    dcoCount c p = dcoCount c (p + 1536 * n))

/-- R127: over every legal operand and configuration, p lies in -24448..24447, the first loop needs at most 16 runs,
the second at most 15, and so k <= 15. -/
def Obligations.PitchAndLoopsBounded : Prop :=
  ∀ (c : Config) (note : Nat) (bend : Int), (Instr.dcocvt note bend).wellFormed = true →
    let p := pitch c note bend;
    -24448 ≤ p ∧ p ≤ 24447 ∧ 0 ≤ raiseOctaves 16 p ∧ (lowerOctaves 15 (raiseOctaves 16 p) 0).1 < 1536 ∧
      octaveCount p ≤ 15

/-- R125, R124, R123: the interpolated count lies between the two entries, is the entry itself at weight 0, and is
a - (a - b) * w / 16 rounded toward a, with a product that fits in 20 bits. -/
def Obligations.InterpolationBetweenEntries : Prop :=
  ∀ (c : Config) (p : Int), ∃ (a b : Half) (w : Nat), w < 16 ∧
    c.lut[subOctave p / 16]? = some a ∧ c.lut[subOctave p / 16 + 1]? = some b ∧ w = subOctave p % 16 ∧
    b ≤ a ∧ (a.toNat - b.toNat) * w < 2 ^ 20 ∧
    b.toNat ≤ interpolatedCount c p ∧ interpolatedCount c p ≤ a.toNat ∧
    (w = 0 → interpolatedCount c p = a.toNat) ∧
    16 * (a.toNat - interpolatedCount c p) ≤ (a.toNat - b.toNat) * w ∧
    (a.toNat - b.toNat) * w < 16 * (a.toNat - interpolatedCount c p) + 16

/-- R128: with BEND = 0 the count is a table entry at index 8 * ((NOTE - REF_NOTE) mod 12), shifted. -/
def Obligations.ZeroBendReadsTableEntry : Prop :=
  ∀ (note : Nat) (s : State), ∃ (t : State) (i : Nat) (e : Half),
    exec (.dcocvt note 0) s = .next t ∧
    (i : Int) = 8 * (((note : Int) - s.cfg.refNote) % 12) ∧ s.cfg.lut[i]? = some e ∧
    (128 : Int) ∣ pitch s.cfg note 0 ∧ weight (pitch s.cfg note 0) = 0 ∧
    t.dcoFreq = e >>> octaveCount (pitch s.cfg note 0)

/-- R129: for p >= 0, twelve notes up halves the count, rounding down; for p < 0 it leaves the count as it is. -/
def Obligations.OctaveUpHalvesCount : Prop :=
  ∀ (note : Nat) (bend : Int) (s : State), ∃ t u : State,
    exec (.dcocvt note bend) s = .next t ∧ exec (.dcocvt (note + 12) bend) s = .next u ∧
    (0 ≤ pitch s.cfg note bend →
      subOctave (pitch s.cfg (note + 12) bend) = subOctave (pitch s.cfg note bend) ∧
      octaveCount (pitch s.cfg (note + 12) bend) = octaveCount (pitch s.cfg note bend) + 1 ∧
      u.dcoFreq.toNat = t.dcoFreq.toNat / 2) ∧
    (pitch s.cfg note bend < 0 →
      subOctave (pitch s.cfg (note + 12) bend) = subOctave (pitch s.cfg note bend) ∧
      octaveCount (pitch s.cfg (note + 12) bend) = 0 ∧ u.dcoFreq = t.dcoFreq)

/-- R130, for pitches at or above the reference: at the same k the count never rises with the pitch. (Below the
reference k is always 0 and R122 makes the count periodic, so there R130's first sentence cannot hold: NOTES.md.) -/
def Obligations.CountFallsWithinOctave : Prop :=
  ∀ (c : Config) (p p' : Int), 0 ≤ p → p ≤ p' → octaveCount p = octaveCount p' → dcoCount c p' ≤ dcoCount c p

/-- R130, second and third sentence: at zero bend the count is non-increasing within the twelve notes from
REF_NOTE + 12j, and from the last of them to the next octave exactly when LUT[0] >> (j + 1) <= LUT[88] >> j. -/
def Obligations.ZeroBendFallsAcrossOctaveIff : Prop :=
  ∀ (c : Config) (j : Nat),
    (∀ m n : Nat, m ≤ n → n ≤ 11 →
      dcoCount c (pitch c (c.refNote + 12 * j + n) 0) ≤ dcoCount c (pitch c (c.refNote + 12 * j + m) 0)) ∧
    (dcoCount c (pitch c (c.refNote + 12 * (j + 1)) 0) ≤ dcoCount c (pitch c (c.refNote + 12 * j + 11) 0) ↔
      c.lut[0] >>> (j + 1) ≤ c.lut[88] >>> j)

/-! ## The pseudorandom generator (42_rng.md) -/

/-- R150, R152, R153: RNGDRAW takes two LFSR steps; RAND[0] is the upper 12 bits of the first state, RAND[1] of the
second, and RNG_STATE is the second. Nothing else changes. -/
def Obligations.RngdrawAdvancesTwice : Prop :=
  encode .rngdraw = 0x20000000#32 ∧
  ∀ (w : Word) (s : State), w.extractLsb' 28 4 = 0x2#4 →
    decode w = .rngdraw ∧
    ∃ t : State, exec .rngdraw s = .next t ∧
      t.rngState = lfsr (lfsr s.rngState) ∧
      t.rand0.toNat = (lfsr s.rngState).toNat / 2 ^ 4 ∧ t.rand1.toNat = (lfsr (lfsr s.rngState)).toNat / 2 ^ 4 ∧
      t.dcoFreq = s.dcoFreq ∧ t.cnt = s.cnt ∧ t.status = s.status ∧ t.drumStep = false ∧ t.cfg = s.cfg ∧
      t.port = s.port

/-- R151, bit by bit: bit i of the next state is bit i + 1, exclusive-or the mask's bit i when bit 0 is 1. -/
def Obligations.LfsrStepByBits : Prop :=
  ∀ (x : Half) (i : Nat), i < 16 →
    (lfsr x).getLsbD i = ((i < 15 && x.getLsbD (i + 1)) ^^ (x.getLsbD 0 && (0xB400#16).getLsbD i))

/-- R155: an LFSR step maps every nonzero state to a nonzero state, with bit 15 set when the bit shifted out is 1, and
0 to 0; so no draw reaches 0 from a nonzero state. -/
def Obligations.LfsrKeepsNonzero : Prop :=
  (∀ x : Half, x ≠ 0#16 → lfsr x ≠ 0#16) ∧ (∀ x : Half, x.getLsbD 0 = true → (lfsr x).getLsbD 15 = true) ∧
  lfsr 0#16 = 0#16 ∧ ∀ n : Nat, lfsr^[n] rngSeed ≠ 0#16

/-- R156: from the seed the LFSR returns after exactly 65535 steps, having visited every nonzero state. A run of draws,
each of two steps, is back at the seed after 65535 draws and after no smaller positive number; its pairs repeat after
65535 draws and after no smaller positive number. -/
def Obligations.LfsrPeriodIsFull : Prop :=
  lfsr^[65535] rngSeed = rngSeed ∧
  (∀ n : Nat, 0 < n → n < 65535 → lfsr^[n] rngSeed ≠ rngSeed) ∧
  (∀ x : Half, x ≠ 0#16 → ∃ n : Nat, n < 65535 ∧ lfsr^[n] rngSeed = x) ∧
  (∀ n : Nat,
    derivedValue (lfsr^[2 * (n + 65535) + 1] rngSeed) = derivedValue (lfsr^[2 * n + 1] rngSeed) ∧
    derivedValue (lfsr^[2 * (n + 65535) + 2] rngSeed) = derivedValue (lfsr^[2 * n + 2] rngSeed)) ∧
  lfsr^[2 * 65535] rngSeed = rngSeed ∧
  (∀ m : Nat, 0 < m → m < 65535 → lfsr^[2 * m] rngSeed ≠ rngSeed ∧
    ∃ n : Nat,
      derivedValue (lfsr^[2 * (n + m) + 1] rngSeed) ≠ derivedValue (lfsr^[2 * n + 1] rngSeed) ∨
      derivedValue (lfsr^[2 * (n + m) + 2] rngSeed) ≠ derivedValue (lfsr^[2 * n + 2] rngSeed))

/-- R157: after any list of commands RNG_STATE and, once there was a draw, RAND depend only on how many RNGDRAWs it
held and on the state it began with. -/
def Obligations.DrawsDependOnlyOnTheirNumber : Prop :=
  ∀ (is : List Instr) (s : State), ∃ t : State, runCommands is s = .next t ∧
    t.rngState = lfsr^[2 * drawCount is] s.rngState ∧
    (0 < drawCount is →
      t.rand0 = derivedValue (lfsr^[2 * drawCount is - 1] s.rngState) ∧
      t.rand1 = derivedValue (lfsr^[2 * drawCount is] s.rngState)) ∧
    (drawCount is = 0 → t.rand0 = s.rand0 ∧ t.rand1 = s.rand1)

/-! ## Steps, issuers and exceptions (10_state.md, 20_memory.md, 60_exceptions.md) -/

/-- R13, R22, R32: with rst low and one issuer presenting, the step is exec of the decoded word, in the state whose
pins have moved on by that word. -/
def Obligations.StepRunsTheAcceptedCommand : Prop :=
  ∀ (s : State) (w : Word) (ws : List Word), s.port.rstPin.head? ≠ some true →
    (s.port.hostQueue = w :: ws → s.port.timerQueue = [] →
      step s = exec (decode w)
        { s with port := { rstPin := s.port.rstPin.tail, hostQueue := ws, timerQueue := [],
                           arbCount := s.port.arbCount } }) ∧
    (s.port.hostQueue = [] → s.port.timerQueue = w :: ws →
      step s = exec (decode w)
        { s with port := { rstPin := s.port.rstPin.tail, hostQueue := [], timerQueue := ws,
                           arbCount := s.port.arbCount } })

/-- R33, R183: when both issuers present, the step takes one of the two and leaves the other's waiting; which one is
the free value of log entry 2. -/
def Obligations.CoincidenceTakesOneIssuer : Prop :=
  ∀ (s : State) (h t : Word) (hs ts : List Word), s.port.rstPin.head? ≠ some true →
    s.port.hostQueue = h :: hs → s.port.timerQueue = t :: ts →
    step s = exec (decode h)
      { s with port := { rstPin := s.port.rstPin.tail, hostQueue := hs, timerQueue := t :: ts,
                         arbCount := s.port.arbCount + 1 } } ∨
    step s = exec (decode t)
      { s with port := { rstPin := s.port.rstPin.tail, hostQueue := h :: hs, timerQueue := ts,
                         arbCount := s.port.arbCount + 1 } }

/-- R60, R183: two coinciding commands both take effect, in one of the two orders, each seeing the state the other
left. -/
def Obligations.CoincidentCommandsRunInSomeOrder : Prop :=
  ∀ (s : State) (h t : Word), s.port.rstPin = [] → s.port.hostQueue = [h] → s.port.timerQueue = [t] →
    ∃ u : State, Sys2Proof.core.run 2 s = .next u ∧ u.port.hostQueue = [] ∧ u.port.timerQueue = [] ∧
      (runCommands [decode h, decode t] s = .next { u with port := s.port } ∨
        runCommands [decode t, decode h] s = .next { u with port := s.port })

/-- R191, R32: a clock with rst low and no command presented holds every register; the strobe is low. -/
def Obligations.IdleClockHoldsRegisters : Prop :=
  ∀ s : State, s.port.rstPin.head? ≠ some true → s.port.hostQueue = [] → s.port.timerQueue = [] →
    step s = .next { s with drumStep := false,
                            port := { rstPin := s.port.rstPin.tail, hostQueue := [], timerQueue := [],
                                      arbCount := s.port.arbCount } }

/-- R32, R105, R170, R171, R172, R200: drum_step is high after a step exactly when the step took a word of RTTICK with
MODE 7, 8 or 9. -/
def Obligations.StrobeHighExactlyAfterDrumTick : Prop :=
  ∀ s t : State, step s = .next t →
    (t.outputs.drumStep = true ↔ s.port.rst = false ∧ ∃ (w : Word) (p : Port),
      s.port.nextClock.takeCommand = (some w, p) ∧ w.extractLsb' 28 4 = 0x4#4 ∧
      (w.extractLsb' 0 4 = 7#4 ∨ w.extractLsb' 0 4 = 8#4 ∨ w.extractLsb' 0 4 = 9#4))

/-- R180, R181: no command raises anything, whatever its operands and the state. -/
def Obligations.EveryCommandCompletes : Prop :=
  ∀ (i : Instr) (s : State), ∃ t : State, exec i s = .next t

/-- R180, R191: from any state at all, the block runs for ever. -/
def Obligations.NoRunEverStops : Prop := ∀ s : State, NeverStops s

/-- R29, R28: which command may change which register, and that none changes the configuration. -/
def Obligations.OnlyListedCommandsWriteARegister : Prop :=
  ∀ (i : Instr) (s t : State), exec i s = .next t →
    (t.rngState ≠ s.rngState → i = .rngdraw) ∧ (t.rand0 ≠ s.rand0 → i = .rngdraw) ∧
    (t.rand1 ≠ s.rand1 → i = .rngdraw) ∧ (t.dcoFreq ≠ s.dcoFreq → ∃ note bend, i = .dcocvt note bend) ∧
    (t.status ≠ s.status → i = .sreset ∨ ∃ mode, i = .rttick mode) ∧
    (∀ k : Nat, t.cnt[k]? ≠ s.cnt[k]? → i = .rtarm k ∨ i = .sreset ∨ ∃ mode, i = .rttick mode) ∧
    (t.drumStep = true → ∃ mode, i = .rttick mode) ∧ t.cfg = s.cfg ∧ t.port = s.port

/-- R28: in no run of any length does the configuration change, nor what the read port shows of it. -/
def Obligations.ConfigurationNeverChanges : Prop :=
  ∀ (n : Nat) (s t : State), Sys2Proof.core.run n s = .next t →
    t.cfg = s.cfg ∧ ∀ a : BitVec 8, (6#8 ≤ a ∧ a ≤ 9#8) ∨ 0x80#8 ≤ a → readPort t a = readPort s a

/-! ## Invariants -/

/-- Every step keeps the invariant (R20, R101, R105, R106, R125, R126, R155). -/
def Obligations.StepKeepsInvariant : Prop :=
  ∀ s t : State, s.Inv → step s = .next t → t.Inv

/-- The reset state has the invariant. -/
def Obligations.ResetHasInvariant : Prop := State.reset.Inv

/-- R150, R154, R157: RAND always belongs to the LFSR state: every step keeps it so, and it is so at reset. -/
def Obligations.RandBelongsToLfsrState : Prop :=
  State.reset.RandFromDraw ∧ ∀ s t : State, s.RandFromDraw → step s = .next t → t.RandFromDraw

/-! ## Encoding (30_encoding.md, 20_memory.md) -/

/-- R80, R81: decoding the canonical word of any command with operands in range gives the command back. -/
def Obligations.DecodeOfEncode : Prop :=
  ∀ i : Instr, i.wellFormed = true → decode (encode i) = i

/-- R76, R81: the canonical word of what a word decodes to is that word with its reserved bits clear. -/
def Obligations.EncodeOfDecodeClearsReserved : Prop :=
  ∀ w : Word, encode (decode w) = w &&& ~~~(decode w).reservedMask ∧ (decode w).wellFormed = true

/-- R76: a word with any of its reserved bits set or cleared is the same command; the reserved bits are cmd[27:0] of
format N, cmd[27:21] of format D, cmd[27:4] of format I; and the canonical word has them zero. -/
def Obligations.ReservedBitsAreIgnored : Prop :=
  (∀ w r : Word,
    decode (w ||| (r &&& (decode w).reservedMask)) = decode w ∧
    decode (w &&& ~~~(r &&& (decode w).reservedMask)) = decode w) ∧
  (∀ (w : Word) (k : Nat), (decode w).reservedMask.getLsbD k = true ↔
    k ≤ 27 ∧ (if w.extractLsb' 28 4 = 0x1#4 then 21 else if w.extractLsb' 28 4 = 0x3#4 ∨ w.extractLsb' 28 4 = 0x4#4
      then 4 else 0) ≤ k) ∧
  (∀ i : Instr, encode i &&& i.reservedMask = 0#32)

/-- R75, R78: every word matches exactly one row of the opcode map, the row of the command it decodes to, and which
one depends on cmd[31:28] alone. -/
def Obligations.OpcodeMapIsTotalAndUnambiguous : Prop :=
  (∀ w : Word, (opcodeRows.filter (fun r => w &&& opcodeMask == r.2)).map Prod.fst = [(decode w).mnemonic]) ∧
  (∀ w w' : Word, w.extractLsb' 28 4 = w'.extractLsb' 28 4 → (decode w).mnemonic = (decode w').mnemonic)

/-- R74: the operand fields as numbers, and the BEND field of a MIDI pitch bend. -/
def Obligations.OperandFieldValues : Prop :=
  (∀ w : Word, noteField w = w.toNat / 2 ^ 14 % 2 ^ 7 ∧ xField w = w.toNat % 2 ^ 4 ∧
    bendField w = (w.toNat % 2 ^ 14 : Nat) - (if w.getLsbD 13 then 2 ^ 14 else 0 : Int)) ∧
  (∀ msb lsb : BitVec 7, (bendOfMidi msb lsb).toInt = msb.toNat * 128 + lsb.toNat - 8192)

/-- R75: words written out from the encodings decode to the commands they stand for. -/
def Obligations.WrittenOutWordsDecode : Prop :=
  decode 0b00010000000010010000000000000000#32 = .dcocvt 36 0 ∧
  decode 0b00011111111010011111111111111111#32 = .dcocvt 39 (-1) ∧
  decode 0b00010000000000000010000000000000#32 = .dcocvt 0 (-8192) ∧
  decode 0b00101010101111001101111011110000#32 = .rngdraw ∧
  decode 0b00111111111111111111111111110001#32 = .rtarm 1 ∧
  decode 0b01000000000000000000000000001111#32 = .rttick 15 ∧
  decode 0b01010000000000001111111111111111#32 = .sreset ∧
  decode 0b01110000000000000000000000000000#32 = .reserved7 ∧
  decode 0b00001111111111111111111111111111#32 = .nop

/-- R53: over a byte-wide link a command goes most significant byte first, and any four bytes are a command. That fewer
than four are refused by name is the model's choice (log entry 17; R55, 93_implementation_defined.md U1). -/
def Obligations.ByteLinkIsBigEndian : Prop :=
  (∀ (w : Word) (rest : List Byte), decodeBytes (commandBytes w ++ rest) = .ok (decode w, rest)) ∧
  (∀ w : Word, (commandBytes w).map BitVec.toNat =
    [w.toNat / 2 ^ 24, w.toNat / 2 ^ 16 % 256, w.toNat / 2 ^ 8 % 256, w.toNat % 256]) ∧
  (∀ d : Half, (readBytes d).map BitVec.toNat = [d.toNat / 256, d.toNat % 256]) ∧
  (∀ bs : List Byte, bs.length < 4 → decodeBytes bs = .error .partialCommand)

/-- R80, R81: which command and which word each source line of R80 gives, and that an operand outside its range is
rejected; with R82, that every word the assembler emits is the canonical word of a command with operands in range and
decodes to it. -/
def Obligations.AssemblerEmitsCanonicalWords : Prop :=
  (∀ (n : Nat) (a : Asm) (w : Word), n ≤ 14 → assemble n a = some w →
    ∃ i : Instr, expand n a = some i ∧ i.wellFormed = true ∧ w = encode i ∧ decode w = i) ∧
  (∀ (n : Nat) (note bend : Int),
    (expand n (.dcocvt note bend)).isSome = true ↔ 0 ≤ note ∧ note ≤ 127 ∧ -8192 ≤ bend ∧ bend ≤ 8191) ∧
  (∀ (n : Nat) (x : Int), ((expand n (.rtarm x)).isSome = true ↔ 0 ≤ x ∧ x ≤ 15) ∧
    ((expand n (.rttick x)).isSome = true ↔ 0 ≤ x ∧ x ≤ 15) ∧
    ((expand n (.rtarmMono x)).isSome = true ↔ 0 ≤ x ∧ x ≤ 1)) ∧
  (∀ n : Nat,
    expand n .nop = some .nop ∧ assemble n .nop = some 0x00000000#32 ∧
    expand n .rngdraw = some .rngdraw ∧ assemble n .rngdraw = some 0x20000000#32 ∧
    expand n .sreset = some .sreset ∧ assemble n .sreset = some 0x50000000#32) ∧
  (∀ (n : Nat) (x : Int), 0 ≤ x → x ≤ 15 →
    expand n (.rtarm x) = some (.rtarm x.toNat) ∧
    assemble n (.rtarm x) = some (0x30000000#32 ||| BitVec.ofNat 32 x.toNat) ∧
    expand n (.rttick x) = some (.rttick x.toNat) ∧
    assemble n (.rttick x) = some (0x40000000#32 ||| BitVec.ofNat 32 x.toNat)) ∧
  (∀ (n : Nat) (note bend : Int), 0 ≤ note → note ≤ 127 → -8192 ≤ bend → bend ≤ 8191 →
    expand n (.dcocvt note bend) = some (.dcocvt note.toNat bend) ∧
    assemble n (.dcocvt note bend) =
      some (0x10000000#32 ||| (BitVec.ofNat 32 note.toNat <<< 14) ||| (BitVec.ofInt 32 bend &&& 0x3FFF#32)))

/-- R82: the command each pseudo-instruction stands for, which is that of its expansion, and that it is rejected where
its condition fails. -/
def Obligations.PseudoInstructionsExpand : Prop :=
  ∀ n : Nat, n ≤ 14 →
    (∀ v : Nat, v ≤ 1 → expand n (.rtarmMono v) = some (.rtarm v) ∧ expand n (.rtarmMono v) = expand n (.rtarm v)) ∧
    (∀ v : Int, v < 0 ∨ 1 < v → expand n (.rtarmMono v) = none) ∧
    (∀ s : Nat, s < n →
      expand n (.rtarmPoly s) = some (.rtarm (2 + s)) ∧ expand n (.rtarmPoly s) = expand n (.rtarm (2 + s))) ∧
    (∀ s : Int, s < 0 ∨ n ≤ s → expand n (.rtarmPoly s) = none) ∧
    (∀ note : Int, expand n (.dcocvtNote note) = expand n (.dcocvt note 0) ∧
      (0 ≤ note → note ≤ 127 → expand n (.dcocvtNote note) = some (.dcocvt note.toNat 0)) ∧
      (note < 0 ∨ 127 < note → expand n (.dcocvtNote note) = none)) ∧
    expand n .rttickPlain = some (.rttick 0) ∧ expand n .rttickPlain = expand n (.rttick 0)

/-! ## The read port and the configuration (10_state.md, 00_scope.md) -/

/-- R30: the register map, every range of it, in a state whose file holds NCNT registers. -/
def Obligations.ReadPortMap : Prop :=
  ∀ s : State, s.cnt.length = s.cfg.ncnt →
    readPort s 0x00#8 = s.rngState ∧ (readPort s 0x01#8).toNat = s.rand0.toNat ∧
    (readPort s 0x02#8).toNat = s.rand1.toNat ∧ readPort s 0x03#8 = s.dcoFreq ∧
    (∀ i : Nat, (readPort s 0x04#8).getLsbD i = ((i == 0 && s.chg) || (i == 1 && s.dtick))) ∧
    (∀ k : Nat, (readPort s 0x05#8).getLsbD k = true ↔ k < s.cfg.ncnt ∧ ∃ c, s.cnt[k]? = some c ∧ c ≠ 0#8) ∧
    (readPort s 0x06#8).toNat = s.cfg.retrigTicks.toNat ∧ (readPort s 0x07#8).toNat = s.cfg.nPoly ∧
    (readPort s 0x08#8).toNat = s.cfg.refNote ∧ (readPort s 0x09#8).toNat = s.cfg.bendShift ∧
    (∀ a : BitVec 8, 0x0A#8 ≤ a → a ≤ 0x0F#8 → readPort s a = 0#16) ∧
    (∀ (a : BitVec 8) (c : Count), 0x10#8 ≤ a → a ≤ 0x1F#8 → s.cnt[a.toNat - 0x10]? = some c →
      (readPort s a).toNat = c.toNat) ∧
    (∀ a : BitVec 8, 0x10#8 ≤ a → a ≤ 0x1F#8 → s.cfg.ncnt ≤ a.toNat - 0x10 → readPort s a = 0#16) ∧
    (∀ a : BitVec 8, 0x20#8 ≤ a → a ≤ 0x7F#8 → readPort s a = 0#16) ∧
    (∀ a : BitVec 8, 0x80#8 ≤ a → a ≤ 0xE0#8 → s.cfg.lut[a.toNat - 0x80]? = some (readPort s a)) ∧
    (∀ a : BitVec 8, 0xE1#8 ≤ a → readPort s a = 0#16)

/-- R8: exactly the parameters in the legal ranges with a non-increasing table make a configuration. -/
def Obligations.IllFormedConfigurationRefused : Prop :=
  ∀ p : Params, (Config.ofParams p).isSome = true ↔
    1 ≤ p.nPoly ∧ p.nPoly ≤ 14 ∧ 1 ≤ p.retrigTicks.toNat ∧ p.refNote ≤ 127 ∧ p.bendShift ≤ 13 ∧ 0 < p.tickPeriod ∧
      ∀ i j : Nat, i ≤ j → ∀ a b : Half, p.lut[i]? = some a → p.lut[j]? = some b → b ≤ a

/-- R207, with an exact timer: a countdown armed to D is cleared by the D-th tick and by no earlier one, and that tick
comes more than (D - 1) * TICK_PERIOD and at most D * TICK_PERIOD after the arm. -/
def Obligations.ArmedIntervalInTickPeriods : Prop :=
  ∀ (s : State) (id first : Nat), s.cnt.length = s.cfg.ncnt → id < s.cfg.ncnt →
    0 < first → first ≤ s.cfg.tickPeriod →
    let d := s.cfg.retrigTicks.toNat;
    (∀ m : Nat, ∃ t : State, runCommands (.rtarm id :: List.replicate m (.rttick 0)) s = .next t ∧
      (t.armed id = true ↔ m < d)) ∧
    (d - 1) * s.cfg.tickPeriod < tickTime s.cfg first d ∧ tickTime s.cfg first d ≤ d * s.cfg.tickPeriod

/-- R32, R27, R26: the output ports that are driven continuously show DCO_FREQ, RAND, ARMED (bit k is 1 exactly when
k < NCNT and CNT[k] is nonzero) and STATUS.CHG, in every state whose file holds NCNT registers. R35: a power-on reset
step leaves all of them, and the strobe, 0. -/
def Obligations.OutputPortsShowRegisters : Prop :=
  (∀ s : State, s.cnt.length = s.cfg.ncnt →
    s.outputs.dcoFreq = s.dcoFreq ∧ s.outputs.rand0 = s.rand0 ∧ s.outputs.rand1 = s.rand1 ∧
    (∀ k : Nat, s.outputs.armed.getLsbD k = true ↔ k < s.cfg.ncnt ∧ ∃ c, s.cnt[k]? = some c ∧ c ≠ 0#8) ∧
    s.outputs.chg = s.status.getLsbD 0) ∧
  (∀ s : State, s.port.rstPin.head? = some true →
    ∃ t : State, step s = .next t ∧
      t.outputs.dcoFreq = 0#16 ∧ t.outputs.rand0 = 0#12 ∧ t.outputs.rand1 = 0#12 ∧ t.outputs.armed = 0#16 ∧
      t.outputs.chg = false ∧ t.outputs.drumStep = false)
end

