-- ==== Sys2Proof/Laws/Assembler.lean ====
section
/-! SUPPORT. What the assembler's operand checks give, for proofs to cite instead of unfolding them. -/

namespace Sys2Proof.Machine

theorem natOperand_eq_some_iff (max : Nat) (v : Int) (n : Nat) :
    natOperand max v = some n ↔ 0 ≤ v ∧ v ≤ max ∧ n = v.toNat := by
  unfold natOperand
  split <;> simp_all [eq_comm]

theorem natOperand_eq_none_iff (max : Nat) (v : Int) : natOperand max v = none ↔ v < 0 ∨ max < v := by
  unfold natOperand
  split <;> simp <;> omega

theorem assembleDcocvt_eq_some_iff (note bend : Int) (i : Instr) :
    assembleDcocvt note bend = some i ↔
      0 ≤ note ∧ note ≤ 127 ∧ -8192 ≤ bend ∧ bend ≤ 8191 ∧ i = .dcocvt note.toNat bend := by
  unfold assembleDcocvt
  split
  · rw [Option.map_eq_some_iff]
    constructor
    · rintro ⟨n, hn, rfl⟩
      obtain ⟨h0, h1, rfl⟩ := (natOperand_eq_some_iff _ _ _).1 hn
      exact ⟨h0, h1, by omega, by omega, rfl⟩
    · rintro ⟨h0, h1, -, -, rfl⟩
      exact ⟨note.toNat, (natOperand_eq_some_iff _ _ _).2 ⟨h0, h1, rfl⟩, rfl⟩
  · simp
    omega

theorem assembleDcocvt_eq_none_iff (note bend : Int) :
    assembleDcocvt note bend = none ↔ note < 0 ∨ 127 < note ∨ bend < -8192 ∨ 8191 < bend := by
  unfold assembleDcocvt
  split <;> simp [natOperand_eq_none_iff] <;> omega

end Sys2Proof.Machine
end

