-- ==== Sys2Proof/Laws/Decode.lean ====
section
/-! SUPPORT. The fields of a word built in one of the three formats (R71 to R73), the ranges of decoded operands, and
the value of the opcode field. -/

namespace Sys2Proof

/-! ## Fields of the formats -/

@[simp] theorem opField_formatN (op : BitVec 4) : opField (formatN op) = op := by
  refine BitVec.eq_of_getLsbD_eq fun i hi => ?_
  simp only [opField, formatN, BitVec.getLsbD_extractLsb', BitVec.getLsbD_append]
  interval_cases i <;> simp

@[simp] theorem opField_formatI (op x : BitVec 4) : opField (formatI op x) = op := by
  refine BitVec.eq_of_getLsbD_eq fun i hi => ?_
  simp only [opField, formatI, BitVec.getLsbD_extractLsb', BitVec.getLsbD_append]
  interval_cases i <;> simp

@[simp] theorem opField_formatD (op : BitVec 4) (note : BitVec 7) (bend : BitVec 14) :
    opField (formatD op note bend) = op := by
  refine BitVec.eq_of_getLsbD_eq fun i hi => ?_
  simp only [opField, formatD, BitVec.getLsbD_extractLsb', BitVec.getLsbD_append]
  interval_cases i <;> simp

@[simp] theorem xField_formatI (op x : BitVec 4) : xField (formatI op x) = x.toNat := by
  refine congrArg BitVec.toNat (BitVec.eq_of_getLsbD_eq fun i hi => ?_)
  simp only [formatI, BitVec.getLsbD_extractLsb', BitVec.getLsbD_append]
  interval_cases i <;> simp

@[simp] theorem noteField_formatD (op : BitVec 4) (note : BitVec 7) (bend : BitVec 14) :
    noteField (formatD op note bend) = note.toNat := by
  refine congrArg BitVec.toNat (BitVec.eq_of_getLsbD_eq fun i hi => ?_)
  simp only [formatD, BitVec.getLsbD_extractLsb', BitVec.getLsbD_append]
  interval_cases i <;> simp

@[simp] theorem bendField_formatD (op : BitVec 4) (note : BitVec 7) (bend : BitVec 14) :
    bendField (formatD op note bend) = bend.toInt := by
  refine congrArg BitVec.toInt (BitVec.eq_of_getLsbD_eq fun i hi => ?_)
  simp only [formatD, BitVec.getLsbD_extractLsb', BitVec.getLsbD_append]
  interval_cases i <;> simp

/-! ## Reserved bits of the formats are zero -/

theorem formatN_reserved (op : BitVec 4) : formatN op &&& 0x0FFFFFFF#32 = 0#32 := by
  refine BitVec.eq_of_getLsbD_eq fun i hi => ?_
  simp only [formatN, BitVec.getLsbD_and, BitVec.getLsbD_append]
  interval_cases i <;> simp

theorem formatI_reserved (op x : BitVec 4) : formatI op x &&& 0x0FFFFFF0#32 = 0#32 := by
  refine BitVec.eq_of_getLsbD_eq fun i hi => ?_
  simp only [formatI, BitVec.getLsbD_and, BitVec.getLsbD_append]
  interval_cases i <;> simp

theorem formatD_reserved (op : BitVec 4) (note : BitVec 7) (bend : BitVec 14) :
    formatD op note bend &&& 0x0FE00000#32 = 0#32 := by
  refine BitVec.eq_of_getLsbD_eq fun i hi => ?_
  simp only [formatD, BitVec.getLsbD_and, BitVec.getLsbD_append]
  interval_cases i <;> simp

/-! ## Ranges of the decoded operands (R74) -/

theorem noteField_le (w : Word) : noteField w ≤ 127 := by
  unfold noteField
  have := (w.extractLsb' 14 7).isLt
  omega

theorem xField_le (w : Word) : xField w ≤ 15 := by
  unfold xField
  have := (w.extractLsb' 0 4).isLt
  omega

theorem bendField_range (w : Word) : -8192 ≤ bendField w ∧ bendField w ≤ 8191 := by
  unfold bendField
  have h1 := BitVec.le_toInt (w.extractLsb' 0 14)
  have h2 := BitVec.toInt_lt (x := w.extractLsb' 0 14)
  omega

/-! ## Decoding by opcode (R75) -/

theorem decode_op0 (w : Word) (h : opField w = 0x0#4) : decode w = .nop := by
  unfold decode
  rw [h]
  rfl

theorem decode_op1 (w : Word) (h : opField w = 0x1#4) : decode w = .dcocvt (noteField w) (bendField w) := by
  unfold decode
  rw [h]
  rfl

theorem decode_op2 (w : Word) (h : opField w = 0x2#4) : decode w = .rngdraw := by
  unfold decode
  rw [h]
  rfl

theorem decode_op3 (w : Word) (h : opField w = 0x3#4) : decode w = .rtarm (xField w) := by
  unfold decode
  rw [h]
  rfl

theorem decode_op4 (w : Word) (h : opField w = 0x4#4) : decode w = .rttick (xField w) := by
  unfold decode
  rw [h]
  rfl

theorem decode_op5 (w : Word) (h : opField w = 0x5#4) : decode w = .sreset := by
  unfold decode
  rw [h]
  rfl

theorem decode_op6 (w : Word) (h : opField w = 0x6#4) : decode w = .reserved6 := by
  unfold decode
  rw [h]
  rfl

theorem decode_op7 (w : Word) (h : opField w = 0x7#4) : decode w = .reserved7 := by
  unfold decode
  rw [h]
  rfl

theorem decode_op8 (w : Word) (h : opField w = 0x8#4) : decode w = .reserved8 := by
  unfold decode
  rw [h]
  rfl

theorem decode_op9 (w : Word) (h : opField w = 0x9#4) : decode w = .reserved9 := by
  unfold decode
  rw [h]
  rfl

theorem decode_opA (w : Word) (h : opField w = 0xA#4) : decode w = .reservedA := by
  unfold decode
  rw [h]
  rfl

theorem decode_opB (w : Word) (h : opField w = 0xB#4) : decode w = .reservedB := by
  unfold decode
  rw [h]
  rfl

theorem decode_opC (w : Word) (h : opField w = 0xC#4) : decode w = .reservedC := by
  unfold decode
  rw [h]
  rfl

theorem decode_opD (w : Word) (h : opField w = 0xD#4) : decode w = .reservedD := by
  unfold decode
  rw [h]
  rfl

theorem decode_opE (w : Word) (h : opField w = 0xE#4) : decode w = .reservedE := by
  unfold decode
  rw [h]
  rfl

theorem decode_opF (w : Word) (h : opField w = 0xF#4) : decode w = .reservedF := by
  unfold decode
  rw [h]
  rfl

/-- The opcode field has sixteen values. -/
theorem opField_cases (w : Word) : ∃ n : Nat, n < 16 ∧ opField w = BitVec.ofNat 4 n :=
  ⟨(opField w).toNat, (opField w).isLt, by simp⟩

/-- To show something of every word and its command, show it for each opcode (R78). -/
theorem decode_elim {P : Word → Instr → Prop}
    (h0 : ∀ w, opField w = 0x0#4 → P w .nop)
    (h1 : ∀ w, opField w = 0x1#4 → P w (.dcocvt (noteField w) (bendField w)))
    (h2 : ∀ w, opField w = 0x2#4 → P w .rngdraw)
    (h3 : ∀ w, opField w = 0x3#4 → P w (.rtarm (xField w)))
    (h4 : ∀ w, opField w = 0x4#4 → P w (.rttick (xField w)))
    (h5 : ∀ w, opField w = 0x5#4 → P w .sreset)
    (h6 : ∀ w, opField w = 0x6#4 → P w .reserved6)
    (h7 : ∀ w, opField w = 0x7#4 → P w .reserved7)
    (h8 : ∀ w, opField w = 0x8#4 → P w .reserved8)
    (h9 : ∀ w, opField w = 0x9#4 → P w .reserved9)
    (hA : ∀ w, opField w = 0xA#4 → P w .reservedA)
    (hB : ∀ w, opField w = 0xB#4 → P w .reservedB)
    (hC : ∀ w, opField w = 0xC#4 → P w .reservedC)
    (hD : ∀ w, opField w = 0xD#4 → P w .reservedD)
    (hE : ∀ w, opField w = 0xE#4 → P w .reservedE)
    (hF : ∀ w, opField w = 0xF#4 → P w .reservedF)
    (w : Word) : P w (decode w) := by
  obtain ⟨n, hn, h⟩ := opField_cases w
  interval_cases n
  · exact decode_op0 w h ▸ h0 w h
  · exact decode_op1 w h ▸ h1 w h
  · exact decode_op2 w h ▸ h2 w h
  · exact decode_op3 w h ▸ h3 w h
  · exact decode_op4 w h ▸ h4 w h
  · exact decode_op5 w h ▸ h5 w h
  · exact decode_op6 w h ▸ h6 w h
  · exact decode_op7 w h ▸ h7 w h
  · exact decode_op8 w h ▸ h8 w h
  · exact decode_op9 w h ▸ h9 w h
  · exact decode_opA w h ▸ hA w h
  · exact decode_opB w h ▸ hB w h
  · exact decode_opC w h ▸ hC w h
  · exact decode_opD w h ▸ hD w h
  · exact decode_opE w h ▸ hE w h
  · exact decode_opF w h ▸ hF w h

end Sys2Proof
end

