-- ==== Sys2Proof/Laws/State.lean ====
section
/-! SUPPORT. One lemma for each field under each register write, and under the two resets: what is written and what
is not (R12). No later proof unfolds a record update. -/

namespace Sys2Proof.Machine

variable (s : State)

/-! ## withRng -/

@[simp] theorem State.withRng_cfg (v : Half) (a b : Rand) : (s.withRng v a b).cfg = s.cfg := rfl
@[simp] theorem State.withRng_rngState (v : Half) (a b : Rand) : (s.withRng v a b).rngState = v := rfl
@[simp] theorem State.withRng_rand0 (v : Half) (a b : Rand) : (s.withRng v a b).rand0 = a := rfl
@[simp] theorem State.withRng_rand1 (v : Half) (a b : Rand) : (s.withRng v a b).rand1 = b := rfl
@[simp] theorem State.withRng_dcoFreq (v : Half) (a b : Rand) : (s.withRng v a b).dcoFreq = s.dcoFreq := rfl
@[simp] theorem State.withRng_cnt (v : Half) (a b : Rand) : (s.withRng v a b).cnt = s.cnt := rfl
@[simp] theorem State.withRng_status (v : Half) (a b : Rand) : (s.withRng v a b).status = s.status := rfl
@[simp] theorem State.withRng_drumStep (v : Half) (a b : Rand) : (s.withRng v a b).drumStep = s.drumStep := rfl
@[simp] theorem State.withRng_port (v : Half) (a b : Rand) : (s.withRng v a b).port = s.port := rfl

/-! ## withDcoFreq -/

@[simp] theorem State.withDcoFreq_cfg (v : Half) : (s.withDcoFreq v).cfg = s.cfg := rfl
@[simp] theorem State.withDcoFreq_rngState (v : Half) : (s.withDcoFreq v).rngState = s.rngState := rfl
@[simp] theorem State.withDcoFreq_rand0 (v : Half) : (s.withDcoFreq v).rand0 = s.rand0 := rfl
@[simp] theorem State.withDcoFreq_rand1 (v : Half) : (s.withDcoFreq v).rand1 = s.rand1 := rfl
@[simp] theorem State.withDcoFreq_dcoFreq (v : Half) : (s.withDcoFreq v).dcoFreq = v := rfl
@[simp] theorem State.withDcoFreq_cnt (v : Half) : (s.withDcoFreq v).cnt = s.cnt := rfl
@[simp] theorem State.withDcoFreq_status (v : Half) : (s.withDcoFreq v).status = s.status := rfl
@[simp] theorem State.withDcoFreq_drumStep (v : Half) : (s.withDcoFreq v).drumStep = s.drumStep := rfl
@[simp] theorem State.withDcoFreq_port (v : Half) : (s.withDcoFreq v).port = s.port := rfl

/-! ## withCnt -/

@[simp] theorem State.withCnt_cfg (v : List Count) : (s.withCnt v).cfg = s.cfg := rfl
@[simp] theorem State.withCnt_rngState (v : List Count) : (s.withCnt v).rngState = s.rngState := rfl
@[simp] theorem State.withCnt_rand0 (v : List Count) : (s.withCnt v).rand0 = s.rand0 := rfl
@[simp] theorem State.withCnt_rand1 (v : List Count) : (s.withCnt v).rand1 = s.rand1 := rfl
@[simp] theorem State.withCnt_dcoFreq (v : List Count) : (s.withCnt v).dcoFreq = s.dcoFreq := rfl
@[simp] theorem State.withCnt_cnt (v : List Count) : (s.withCnt v).cnt = v := rfl
@[simp] theorem State.withCnt_status (v : List Count) : (s.withCnt v).status = s.status := rfl
@[simp] theorem State.withCnt_drumStep (v : List Count) : (s.withCnt v).drumStep = s.drumStep := rfl
@[simp] theorem State.withCnt_port (v : List Count) : (s.withCnt v).port = s.port := rfl

/-! ## withStatus -/

@[simp] theorem State.withStatus_cfg (v : BitVec 2) : (s.withStatus v).cfg = s.cfg := rfl
@[simp] theorem State.withStatus_rngState (v : BitVec 2) : (s.withStatus v).rngState = s.rngState := rfl
@[simp] theorem State.withStatus_rand0 (v : BitVec 2) : (s.withStatus v).rand0 = s.rand0 := rfl
@[simp] theorem State.withStatus_rand1 (v : BitVec 2) : (s.withStatus v).rand1 = s.rand1 := rfl
@[simp] theorem State.withStatus_dcoFreq (v : BitVec 2) : (s.withStatus v).dcoFreq = s.dcoFreq := rfl
@[simp] theorem State.withStatus_cnt (v : BitVec 2) : (s.withStatus v).cnt = s.cnt := rfl
@[simp] theorem State.withStatus_status (v : BitVec 2) : (s.withStatus v).status = v := rfl
@[simp] theorem State.withStatus_drumStep (v : BitVec 2) : (s.withStatus v).drumStep = s.drumStep := rfl
@[simp] theorem State.withStatus_port (v : BitVec 2) : (s.withStatus v).port = s.port := rfl

/-! ## withDrumStep -/

@[simp] theorem State.withDrumStep_cfg (v : Bool) : (s.withDrumStep v).cfg = s.cfg := rfl
@[simp] theorem State.withDrumStep_rngState (v : Bool) : (s.withDrumStep v).rngState = s.rngState := rfl
@[simp] theorem State.withDrumStep_rand0 (v : Bool) : (s.withDrumStep v).rand0 = s.rand0 := rfl
@[simp] theorem State.withDrumStep_rand1 (v : Bool) : (s.withDrumStep v).rand1 = s.rand1 := rfl
@[simp] theorem State.withDrumStep_dcoFreq (v : Bool) : (s.withDrumStep v).dcoFreq = s.dcoFreq := rfl
@[simp] theorem State.withDrumStep_cnt (v : Bool) : (s.withDrumStep v).cnt = s.cnt := rfl
@[simp] theorem State.withDrumStep_status (v : Bool) : (s.withDrumStep v).status = s.status := rfl
@[simp] theorem State.withDrumStep_drumStep (v : Bool) : (s.withDrumStep v).drumStep = v := rfl
@[simp] theorem State.withDrumStep_port (v : Bool) : (s.withDrumStep v).port = s.port := rfl

/-! ## withPort -/

@[simp] theorem State.withPort_cfg (v : Port) : (s.withPort v).cfg = s.cfg := rfl
@[simp] theorem State.withPort_rngState (v : Port) : (s.withPort v).rngState = s.rngState := rfl
@[simp] theorem State.withPort_rand0 (v : Port) : (s.withPort v).rand0 = s.rand0 := rfl
@[simp] theorem State.withPort_rand1 (v : Port) : (s.withPort v).rand1 = s.rand1 := rfl
@[simp] theorem State.withPort_dcoFreq (v : Port) : (s.withPort v).dcoFreq = s.dcoFreq := rfl
@[simp] theorem State.withPort_cnt (v : Port) : (s.withPort v).cnt = s.cnt := rfl
@[simp] theorem State.withPort_status (v : Port) : (s.withPort v).status = s.status := rfl
@[simp] theorem State.withPort_drumStep (v : Port) : (s.withPort v).drumStep = s.drumStep := rfl
@[simp] theorem State.withPort_port (v : Port) : (s.withPort v).port = v := rfl

/-! ## The power-on reset and the session reset -/

@[simp] theorem State.powerOn_cfg : s.powerOn.cfg = s.cfg := rfl
@[simp] theorem State.powerOn_rngState : s.powerOn.rngState = 0x002A#16 := rfl
@[simp] theorem State.powerOn_rand0 : s.powerOn.rand0 = 0#12 := rfl
@[simp] theorem State.powerOn_rand1 : s.powerOn.rand1 = 0#12 := rfl
@[simp] theorem State.powerOn_dcoFreq : s.powerOn.dcoFreq = 0#16 := rfl
@[simp] theorem State.powerOn_cnt : s.powerOn.cnt = List.replicate s.cfg.ncnt 0#8 := rfl
@[simp] theorem State.powerOn_status : s.powerOn.status = 0#2 := rfl
@[simp] theorem State.powerOn_drumStep : s.powerOn.drumStep = false := rfl
@[simp] theorem State.powerOn_port : s.powerOn.port = s.port := rfl

@[simp] theorem State.sessionReset_cfg : s.sessionReset.cfg = s.cfg := rfl
@[simp] theorem State.sessionReset_rngState : s.sessionReset.rngState = s.rngState := rfl
@[simp] theorem State.sessionReset_rand0 : s.sessionReset.rand0 = s.rand0 := rfl
@[simp] theorem State.sessionReset_rand1 : s.sessionReset.rand1 = s.rand1 := rfl
@[simp] theorem State.sessionReset_dcoFreq : s.sessionReset.dcoFreq = s.dcoFreq := rfl
@[simp] theorem State.sessionReset_cnt : s.sessionReset.cnt = List.replicate s.cfg.ncnt 0#8 := rfl
@[simp] theorem State.sessionReset_status : s.sessionReset.status = 0#2 := rfl
@[simp] theorem State.sessionReset_drumStep : s.sessionReset.drumStep = s.drumStep := rfl
@[simp] theorem State.sessionReset_port : s.sessionReset.port = s.port := rfl

/-! ## The arming of a countdown, field by field -/

@[simp] theorem State.arm_cfg (id : Nat) : (s.arm id).cfg = s.cfg := by
  unfold State.arm
  split <;> rfl
@[simp] theorem State.arm_rngState (id : Nat) : (s.arm id).rngState = s.rngState := by
  unfold State.arm
  split <;> rfl
@[simp] theorem State.arm_rand0 (id : Nat) : (s.arm id).rand0 = s.rand0 := by
  unfold State.arm
  split <;> rfl
@[simp] theorem State.arm_rand1 (id : Nat) : (s.arm id).rand1 = s.rand1 := by
  unfold State.arm
  split <;> rfl
@[simp] theorem State.arm_dcoFreq (id : Nat) : (s.arm id).dcoFreq = s.dcoFreq := by
  unfold State.arm
  split <;> rfl
theorem State.arm_cnt (id : Nat) :
    (s.arm id).cnt = if id < s.cfg.ncnt then s.cnt.set id s.cfg.retrigTicks else s.cnt := by
  unfold State.arm
  split <;> rfl
@[simp] theorem State.arm_status (id : Nat) : (s.arm id).status = s.status := by
  unfold State.arm
  split <;> rfl
@[simp] theorem State.arm_drumStep (id : Nat) : (s.arm id).drumStep = s.drumStep := by
  unfold State.arm
  split <;> rfl
@[simp] theorem State.arm_port (id : Nat) : (s.arm id).port = s.port := by
  unfold State.arm
  split <;> rfl

/-! ## The fields of STATUS (R26) -/

theorem State.chg_of_statusWord (h d : Bool) (hs : s.status = statusWord h d) : s.chg = h := by
  unfold State.chg
  rw [hs]
  cases h <;> cases d <;> decide

theorem State.dtick_of_statusWord (h d : Bool) (hs : s.status = statusWord h d) : s.dtick = d := by
  unfold State.dtick
  rw [hs]
  cases h <;> cases d <;> decide

@[simp] theorem State.chg_withRng (v : Half) (a b : Rand) : (s.withRng v a b).chg = s.chg := rfl
@[simp] theorem State.chg_withDcoFreq (v : Half) : (s.withDcoFreq v).chg = s.chg := rfl
@[simp] theorem State.chg_withCnt (v : List Count) : (s.withCnt v).chg = s.chg := rfl
@[simp] theorem State.chg_withDrumStep (v : Bool) : (s.withDrumStep v).chg = s.chg := rfl
@[simp] theorem State.chg_withPort (v : Port) : (s.withPort v).chg = s.chg := rfl
@[simp] theorem State.dtick_withRng (v : Half) (a b : Rand) : (s.withRng v a b).dtick = s.dtick := rfl
@[simp] theorem State.dtick_withDcoFreq (v : Half) : (s.withDcoFreq v).dtick = s.dtick := rfl
@[simp] theorem State.dtick_withCnt (v : List Count) : (s.withCnt v).dtick = s.dtick := rfl
@[simp] theorem State.dtick_withDrumStep (v : Bool) : (s.withDrumStep v).dtick = s.dtick := rfl
@[simp] theorem State.dtick_withPort (v : Port) : (s.withPort v).dtick = s.dtick := rfl

theorem State.chg_congr {s t : State} (h : t.status = s.status) : t.chg = s.chg := by
  unfold State.chg
  rw [h]

theorem State.dtick_congr {s t : State} (h : t.status = s.status) : t.dtick = s.dtick := by
  unfold State.dtick
  rw [h]

theorem State.chg_of_status_zero {s : State} (h : s.status = 0#2) : s.chg = false := by
  unfold State.chg
  rw [h]
  decide

theorem State.dtick_of_status_zero {s : State} (h : s.status = 0#2) : s.dtick = false := by
  unfold State.dtick
  rw [h]
  decide

end Sys2Proof.Machine
end

