-- ==== Sys2Proof/Laws/Ops.lean ====
section
/-! SUPPORT. One lemma for each shared operation that says what it gives, for proofs to cite instead of unfolding. -/

namespace Sys2Proof.Machine

/-! ## Countdowns -/

theorem tickCount_le (c : Count) : tickCount c ≤ c := by
  unfold tickCount
  split <;> bv_omega

theorem tickCount_toNat (c : Count) : (tickCount c).toNat = c.toNat - 1 := by
  unfold tickCount
  split <;> bv_omega

theorem arm_getElem?_self (s : State) (id : Nat) (hn : id < s.cfg.ncnt) (hl : id < s.cnt.length) :
    (s.arm id).cnt[id]? = some s.cfg.retrigTicks := by
  rw [State.arm_cnt, if_pos hn, List.getElem?_set_self hl]

theorem arm_getElem?_ne (s : State) (id k : Nat) (h : k ≠ id) : (s.arm id).cnt[k]? = s.cnt[k]? := by
  rw [State.arm_cnt]
  split
  · exact List.getElem?_set_ne (Ne.symm h)
  · rfl

/-- R102. -/
theorem arm_outOfRange (s : State) (id : Nat) (h : s.cfg.ncnt ≤ id) : s.arm id = s := by
  rw [State.arm, if_neg (by omega)]

@[simp] theorem arm_length (s : State) (id : Nat) : (s.arm id).cnt.length = s.cnt.length := by
  rw [State.arm_cnt]
  split <;> simp

theorem anyArmed_iff (cnt : List Count) : anyArmed cnt = true ↔ ∃ c ∈ cnt, c ≠ 0#8 := by
  simp [anyArmed]

theorem armed_iff (s : State) (k : Nat) : s.armed k = true ↔ ∃ c, s.cnt[k]? = some c ∧ c ≠ 0#8 := by
  unfold State.armed
  cases h : s.cnt[k]? <;> simp

theorem bitsToNat_testBit (l : List Bool) (i : Nat) : (bitsToNat l).testBit i = (l[i]?).getD false := by
  induction l generalizing i with
  | nil => simp [bitsToNat]
  | cons b l ih =>
    cases i with
    | zero => cases b <;> simp [bitsToNat]
    | succ i =>
      have hb : bitsToNat (b :: l) / 2 = bitsToNat l := by cases b <;> (simp [bitsToNat]; try omega)
      rw [Nat.testBit_succ, hb, ih, List.getElem?_cons_succ]

/-- R27, R30: bit k of the ARMED word is ARMED[k], within its 16 bits. -/
theorem armedWord_getLsbD (s : State) (k : Nat) : s.armedWord.getLsbD k = (decide (k < 16) && s.armed k) := by
  rw [State.armedWord, BitVec.getLsbD_ofNat, bitsToNat_testBit, State.armed, List.getElem?_map]
  cases s.cnt[k]? <;> rfl

/-! ## STATUS -/

@[simp] theorem chg_tickStatus (s : State) (any drum : Bool) :
    (s.withStatus (tickStatus any drum)).chg = (any || drum) :=
  State.chg_of_statusWord _ _ _ rfl

@[simp] theorem dtick_tickStatus (s : State) (any drum : Bool) :
    (s.withStatus (tickStatus any drum)).dtick = drum :=
  State.dtick_of_statusWord _ _ _ rfl

/-! ## The LFSR -/

theorem lfsr_of_low (x : Half) (h : x.getLsbD 0 = true) : lfsr x = (x >>> 1) ^^^ rngMask := by
  unfold lfsr
  rw [if_pos h]

theorem lfsr_of_not_low (x : Half) (h : x.getLsbD 0 = false) : lfsr x = x >>> 1 := by
  unfold lfsr
  rw [h]
  rfl

/-! ## The octave reduction and the table -/

theorem subOctave_cast (p : Int) : (subOctave p : Int) = p % 1536 := by
  unfold subOctave octave
  omega

theorem octaveCount_of_nonneg (p : Int) (h : 0 ≤ p) : (octaveCount p : Int) = p / 1536 := by
  unfold octaveCount octave
  rw [if_neg (by omega)]
  omega

theorem octaveCount_of_neg (p : Int) (h : p < 0) : octaveCount p = 0 := by
  unfold octaveCount
  rw [if_pos h]

/-- R8: a later table entry is no larger, one step apart. -/
theorem romRead_succ_le (c : Config) (i : Nat) (h : i + 1 ≤ 96) :
    (romRead c (i + 1) h).toNat ≤ (romRead c i (by omega)).toNat :=
  c.wellFormed.2.2.2.2.2 ⟨i, by omega⟩

/-- R8: a later table entry is no larger, any distance apart. -/
theorem romRead_antitone (c : Config) (i d : Nat) (h : i + d ≤ 96) :
    (romRead c (i + d) h).toNat ≤ (romRead c i (by omega)).toNat := by
  induction d with
  | zero => exact Nat.le_refl _
  | succ d ih => exact Nat.le_trans (romRead_succ_le c (i + d) h) (ih (by omega))

/-- Each index the interpolator uses has a word in the ROM (R51, R123). -/
theorem lut_getElem? (c : Config) (i : Nat) (h : i ≤ 96) : c.lut[i]? = some (romRead c i h) := by
  simp [romRead]

/-- R123 to R125, the index and the weight written out. -/
theorem interpolatedCount_eq (c : Config) (p : Int) :
    interpolatedCount c p =
      interpolate (romRead c (subOctave p / 16) (by have := subOctave_lt p; omega)).toNat
        (romRead c (subOctave p / 16 + 1) (by have := subOctave_lt p; omega)).toNat (subOctave p % 16) := rfl

theorem interpolate_le (a b w : Nat) : interpolate a b w ≤ a := Nat.sub_le _ _

/-- R126: the count as a number; the shift cannot lose a high bit, since y fits in 16 bits. -/
theorem dcoCount_toNat (c : Config) (p : Int) :
    (dcoCount c p).toNat = interpolatedCount c p / 2 ^ octaveCount p := by
  have h : interpolatedCount c p < 65536 :=
    Nat.lt_of_le_of_lt (interpolate_le _ _ _) (romRead c (tableIndex p).val (by omega)).isLt
  rw [dcoCount, BitVec.toNat_ofNat, Nat.shiftRight_eq_div_pow]
  exact Nat.mod_eq_of_lt (Nat.lt_of_le_of_lt (Nat.div_le_self _ _) h)

/-! ## The read port, by range -/

theorem readPort_register (s : State) (a : BitVec 8) (h : a.toNat < 0x10) : readPort s a = readRegister s a.toNat := by
  rw [readPort, if_pos h]

theorem readPort_countdown (s : State) (a : BitVec 8) (h1 : 0x10 ≤ a.toNat) (h2 : a.toNat < 0x20) :
    readPort s a = readCountdown s (a.toNat - 0x10) := by
  rw [readPort, if_neg (by omega), if_pos h2]

theorem readPort_gap (s : State) (a : BitVec 8) (h1 : 0x20 ≤ a.toNat) (h2 : a.toNat < 0x80) : readPort s a = 0#16 := by
  rw [readPort, if_neg (by omega), if_neg (by omega), if_pos h2]

theorem readPort_table (s : State) (a : BitVec 8) (h : 0x80 ≤ a.toNat) :
    readPort s a = readTable s.cfg (a.toNat - 0x80) := by
  rw [readPort, if_neg (by omega), if_neg (by omega), if_neg (by omega)]

/-! ## The input pins -/

theorem rst_iff (p : Port) : p.rst = true ↔ p.rstPin.head? = some true := by
  unfold Port.rst
  cases p.rstPin <;> simp

theorem rst_eq_false {p : Port} (h : p.rstPin.head? ≠ some true) : p.rst = false := by
  rw [Ne, ← rst_iff] at h
  simpa using h


theorem takeCommand_none (p : Port) (hh : p.hostQueue = []) (ht : p.timerQueue = []) :
    p.takeCommand = (none, p) := by
  simp [Port.takeCommand, hh, ht]

theorem takeCommand_host (p : Port) (w : Word) (ws : List Word) (hh : p.hostQueue = w :: ws) (ht : p.timerQueue = []) :
    p.takeCommand = (some w, { p with hostQueue := ws }) := by
  simp [Port.takeCommand, hh, ht]

theorem takeCommand_timer (p : Port) (w : Word) (ws : List Word) (hh : p.hostQueue = []) (ht : p.timerQueue = w :: ws) :
    p.takeCommand = (some w, { p with timerQueue := ws }) := by
  simp [Port.takeCommand, hh, ht]

end Sys2Proof.Machine
end

