-- ==== Sys2Proof/Laws/Exec.lean ====
section
/-! SUPPORT. What each command answers, as an equation over the register writes; later proofs rewrite with these and
never unfold exec. -/

namespace Sys2Proof.Machine

variable (s : State)

@[simp] theorem exec_nop : exec .nop s = .next (s.withDrumStep false) := rfl

@[simp] theorem exec_rtarm (id : Nat) : exec (.rtarm id) s = .next ((s.arm id).withDrumStep false) := rfl

@[simp] theorem exec_rttick (mode : Nat) :
    exec (.rttick mode) s =
      .next (((s.withCnt (s.cnt.map tickCount)).withStatus
        (tickStatus (anyArmed s.cnt) (isDrumMode mode))).withDrumStep (isDrumMode mode)) := rfl

@[simp] theorem exec_dcocvt (note : Nat) (bend : Int) :
    exec (.dcocvt note bend) s =
      .next ((s.withDcoFreq (dcoCount s.cfg (pitch s.cfg note bend))).withDrumStep false) := rfl

@[simp] theorem exec_rngdraw :
    exec .rngdraw s =
      .next ((s.withRng (lfsr (lfsr s.rngState)) (derivedValue (lfsr s.rngState))
        (derivedValue (lfsr (lfsr s.rngState)))).withDrumStep false) := rfl

@[simp] theorem exec_sreset : exec .sreset s = .next (s.sessionReset.withDrumStep false) := rfl

@[simp] theorem exec_reserved6 : exec .reserved6 s = .next (s.withDrumStep false) := rfl

@[simp] theorem exec_reserved7 : exec .reserved7 s = .next (s.withDrumStep false) := rfl

@[simp] theorem exec_reserved8 : exec .reserved8 s = .next (s.withDrumStep false) := rfl

@[simp] theorem exec_reserved9 : exec .reserved9 s = .next (s.withDrumStep false) := rfl

@[simp] theorem exec_reservedA : exec .reservedA s = .next (s.withDrumStep false) := rfl

@[simp] theorem exec_reservedB : exec .reservedB s = .next (s.withDrumStep false) := rfl

@[simp] theorem exec_reservedC : exec .reservedC s = .next (s.withDrumStep false) := rfl

@[simp] theorem exec_reservedD : exec .reservedD s = .next (s.withDrumStep false) := rfl

@[simp] theorem exec_reservedE : exec .reservedE s = .next (s.withDrumStep false) := rfl

@[simp] theorem exec_reservedF : exec .reservedF s = .next (s.withDrumStep false) := rfl

/-- No command touches the configuration or the pins (R28, R29). -/
theorem exec_keeps_cfg_port {i : Instr} {s t : State} (h : exec i s = .next t) : t.cfg = s.cfg ∧ t.port = s.port := by
  cases i <;> simp at h <;> subst h <;> simp

end Sys2Proof.Machine
end

