-- ==== Sys2Proof/Laws/PerInstr.lean ====
section
/-! SUPPORT. One lemma for each constructor of Instr: its canonical word carries its opcode in cmd[31:28] and zero in
every reserved bit (R75, R81). -/

namespace Sys2Proof.Laws.CanonicalWord

/-- The word carries the opcode, and no reserved bit of the format is set. -/
def Statement (i : Instr) : Prop := opField (encode i) = i.opcode ∧ encode i &&& i.reservedMask = 0#32

theorem nop : Statement .nop := ⟨opField_formatN _, formatN_reserved _⟩

theorem dcocvt (note : Nat) (bend : Int) : Statement (.dcocvt note bend) :=
  ⟨opField_formatD _ _ _, formatD_reserved _ _ _⟩

theorem rngdraw : Statement .rngdraw := ⟨opField_formatN _, formatN_reserved _⟩

theorem rtarm (id : Nat) : Statement (.rtarm id) := ⟨opField_formatI _ _, formatI_reserved _ _⟩

theorem rttick (mode : Nat) : Statement (.rttick mode) := ⟨opField_formatI _ _, formatI_reserved _ _⟩

theorem sreset : Statement .sreset := ⟨opField_formatN _, formatN_reserved _⟩

theorem reserved6 : Statement .reserved6 := ⟨opField_formatN _, formatN_reserved _⟩

theorem reserved7 : Statement .reserved7 := ⟨opField_formatN _, formatN_reserved _⟩

theorem reserved8 : Statement .reserved8 := ⟨opField_formatN _, formatN_reserved _⟩

theorem reserved9 : Statement .reserved9 := ⟨opField_formatN _, formatN_reserved _⟩

theorem reservedA : Statement .reservedA := ⟨opField_formatN _, formatN_reserved _⟩

theorem reservedB : Statement .reservedB := ⟨opField_formatN _, formatN_reserved _⟩

theorem reservedC : Statement .reservedC := ⟨opField_formatN _, formatN_reserved _⟩

theorem reservedD : Statement .reservedD := ⟨opField_formatN _, formatN_reserved _⟩

theorem reservedE : Statement .reservedE := ⟨opField_formatN _, formatN_reserved _⟩

theorem reservedF : Statement .reservedF := ⟨opField_formatN _, formatN_reserved _⟩

end Sys2Proof.Laws.CanonicalWord
end

