-- ==== Sys2Proof/Laws/Step.lean ====
section
/-! SUPPORT. What a step can do, said once: it is a power-on reset, an idle clock or the acceptance of one word. -/

namespace Sys2Proof.Machine

theorem step_of_rst (s : State) (h : s.port.rst = true) :
    step s = .next (s.withPort s.port.nextClock).powerOn := by
  simp [step, h]

theorem step_of_none (s : State) (p : Port) (h : s.port.rst = false)
    (hn : s.port.nextClock.takeCommand = (none, p)) : step s = .next (s.withPort p).idle := by
  simp [step, h, hn]

theorem step_of_some (s : State) (p : Port) (w : Word) (h : s.port.rst = false)
    (hw : s.port.nextClock.takeCommand = (some w, p)) : step s = exec (decode w) (s.withPort p) := by
  simp [step, h, hw]

/-- The three kinds of step. -/
theorem step_cases {s t : State} (h : step s = .next t) :
    (s.port.rst = true ∧ t = (s.withPort s.port.nextClock).powerOn) ∨
      (s.port.rst = false ∧ ∃ p, s.port.nextClock.takeCommand = (none, p) ∧ t = (s.withPort p).withDrumStep false) ∨
      (s.port.rst = false ∧ ∃ w p, s.port.nextClock.takeCommand = (some w, p) ∧
        exec (decode w) (s.withPort p) = .next t) := by
  cases hr : s.port.rst with
  | true =>
    rw [step_of_rst s hr] at h
    injection h with h
    exact .inl ⟨rfl, h.symm⟩
  | false =>
    cases hc : s.port.nextClock.takeCommand with
    | mk o p =>
      cases o with
      | none =>
        rw [step_of_none s p hr hc] at h
        injection h with h
        exact .inr (.inl ⟨rfl, p, rfl, h.symm⟩)
      | some w =>
        rw [step_of_some s p w hr hc] at h
        exact .inr (.inr ⟨rfl, w, p, rfl, h⟩)

end Sys2Proof.Machine
end

