-- ==== Sys2Proof/Tests/Slice0.lean ====
section
/-! SUPPORT. Tests with results taken from the spec's own vectors and examples (95_test_vectors.md), the smoke tests of
the well-formedness checks, and a witness for every statement that has hypotheses. -/

namespace Sys2Proof.Tests

open Sys2Proof Sys2Proof.Machine
open Host (Outcome)

/-! ## The test configuration TC1 (95_test_vectors.md, section 2); not this hardware's -/

def tc1Rows0 : List Half :=
  [40000, 39712, 39427, 39143, 38861, 38582, 38304, 38029, 37755, 37483, 37214, 36946, 36680, 36416, 36154, 35894,
   35636, 35380, 35125, 34872, 34621, 34372, 34125, 33880, 33636, 33394, 33154, 32915, 32678, 32443, 32210, 31978]

def tc1Rows32 : List Half :=
  [31748, 31520, 31293, 31068, 30844, 30622, 30402, 30183, 29966, 29751, 29537, 29324, 29113, 28904, 28696, 28489,
   28284, 28081, 27879, 27678, 27479, 27281, 27085, 26890, 26697, 26505, 26314, 26125, 25937, 25750, 25565, 25381]

def tc1Rows64 : List Half :=
  [25198, 25017, 24837, 24658, 24481, 24305, 24130, 23956, 23784, 23613, 23443, 23274, 23107, 22941, 22776, 22612,
   22449, 22288, 22127, 21968, 21810, 21653, 21497, 21343, 21189, 21037, 20885, 20735, 20586, 20438, 20291, 20145]

def tc1Lut : Vector Half 97 := ⟨(tc1Rows0 ++ tc1Rows32 ++ tc1Rows64 ++ [20000#16]).toArray, by decide⟩

def tc1Params : Params :=
  { nPoly := 2, retrigTicks := 3#8, refNote := 24, bendShift := 5, lut := tc1Lut, tickPeriod := 10 }

theorem tc1Params_wellFormed : tc1Params.WellFormed := by decide

def tc1 : Config := { toParams := tc1Params, wellFormed := tc1Params_wellFormed }

/-- A state under TC1 with the given countdowns and STATUS, otherwise as after power-on. -/
def st (cnt : List Count) (chg dtick : Bool) : State :=
  { cfg := tc1, rngState := 0x002A#16, rand0 := 0#12, rand1 := 0#12, dcoFreq := 0#16, cnt := cnt,
    status := statusWord chg dtick, drumStep := false, port := Port.quiet }

/-- What a field is after an outcome, if there is a next state. -/
def after {α : Type} (o : Outcome State Fault Refusal) (f : State → α) : Option α :=
  match o with
  | .next s => some (f s)
  | .fault _ => none
  | .refused _ => none

/-! ## Well-formedness smoke: each check refuses an ill-formed term -/

theorem test_note_128_refused : (Instr.dcocvt 128 0).wellFormed = false := by decide
theorem test_bend_above_refused : (Instr.dcocvt 0 8192).wellFormed = false := by decide
theorem test_bend_below_refused : (Instr.dcocvt 0 (-8193)).wellFormed = false := by decide
theorem test_id_16_refused : (Instr.rtarm 16).wellFormed = false := by decide
theorem test_mode_16_refused : (Instr.rttick 16).wellFormed = false := by decide

/-- R8: each range, and the order of the table. -/
theorem test_config_refuses :
    Config.ofParams { tc1Params with nPoly := 0 } = none ∧ Config.ofParams { tc1Params with nPoly := 15 } = none ∧
    Config.ofParams { tc1Params with retrigTicks := 0#8 } = none ∧
    Config.ofParams { tc1Params with refNote := 128 } = none ∧
    Config.ofParams { tc1Params with bendShift := 14 } = none ∧
    Config.ofParams { tc1Params with tickPeriod := 0 } = none ∧
    Config.ofParams { tc1Params with lut := tc1Lut.set 50 40000#16 } = none := by decide

/-! ## Decoding: words written out from R71 to R75 (V-ENC vectors and R80) -/

theorem test_decode_nop : decode 0b00000000000000000000000000000000#32 = .nop := by decide
theorem test_decode_nop_reserved_bits : decode 0x0FFFFFFF#32 = .nop := by decide
theorem test_decode_dcocvt : decode 0b00010000000001100011111111111111#32 = .dcocvt 24 (-1) := by decide
theorem test_decode_dcocvt_reserved_bits : decode 0x1FE9FFFF#32 = .dcocvt 39 (-1) := by decide
theorem test_decode_dcocvt_sign : decode 0x10002000#32 = .dcocvt 0 (-8192) := by decide
theorem test_decode_dcocvt_largest : decode 0x10001FFF#32 = .dcocvt 0 8191 := by decide
theorem test_decode_rngdraw : decode 0b00100000000000000000000000000000#32 = .rngdraw := by decide
theorem test_decode_rtarm : decode 0b00110000000000000000000000000011#32 = .rtarm 3 := by decide
theorem test_decode_rttick : decode 0b01000000000000000000000000001010#32 = .rttick 10 := by decide
theorem test_decode_sreset : decode 0b01010000000000000000000000000000#32 = .sreset := by decide
theorem test_decode_reserved6to9 :
    decode 0x6ABCDEF0#32 = .reserved6 ∧ decode 0x70000000#32 = .reserved7 ∧ decode 0x80000000#32 = .reserved8 ∧
    decode 0x90000000#32 = .reserved9 := by decide
theorem test_decode_reservedAtoF :
    decode 0xA0000000#32 = .reservedA ∧ decode 0xB0000000#32 = .reservedB ∧ decode 0xC0000000#32 = .reservedC ∧
    decode 0xD0000000#32 = .reservedD ∧ decode 0xE0000000#32 = .reservedE ∧ decode 0xFFFFFFFF#32 = .reservedF := by
  decide

theorem test_encode_dcocvt : encode (.dcocvt 24 (-1)) = 0x10063FFF#32 := by decide
theorem test_encode_rtarm : encode (.rtarm 15) = 0x3000000F#32 := by decide

/-- R53: byte 0 carries the opcode. -/
theorem test_bytes_big_endian :
    commandBytes 0x10063FFF#32 = [0x10#8, 0x06#8, 0x3F#8, 0xFF#8] ∧ readBytes 0x4E2A#16 = [0x4E#8, 0x2A#8] := by decide

theorem test_partial_command : decodeBytes [0x10#8, 0x06#8, 0x3F#8] = .error .partialCommand := by decide

theorem test_decodeTableWord : decodeTableWord 32 0x30000003 = some (.rtarm 3) := by decide

/-- V-ENC-10 to 12. -/
theorem test_midi_bend :
    bendOfMidi 0x40#7 0x00#7 = 0x0000#14 ∧ bendOfMidi 0x7F#7 0x7F#7 = 0x1FFF#14 ∧
    bendOfMidi 0x00#7 0x00#7 = 0x2000#14 := by decide

/-! ## The commands -/

/-- V-CTL-1. -/
theorem test_nop : after (exec .nop { st [2, 0, 3, 0] true true with drumStep := true })
    (fun t => (t.cnt, t.chg, t.drumStep)) = some ([2, 0, 3, 0], true, false) := by decide

/-- V-DCO-15: bend -1 shifts to -1, and the last interval reads LUT[96]. -/
theorem test_dcocvt_bend_minus_one : after (exec (.dcocvt 24 (-1)) (st [0, 0, 0, 0] false false)) (·.dcoFreq) =
    some 20010#16 := by decide

/-- V-DCO-23: interpolation and an octave shift. -/
theorem test_dcocvt_shifted : after (exec (.dcocvt 35 8191) (st [0, 0, 0, 0] false false)) (·.dcoFreq) =
    some 18886#16 := by decide

/-- V-DRAW-1. -/
theorem test_rngdraw_first : after (exec .rngdraw (st [0, 0, 0, 0] false false))
    (fun t => (t.rngState, t.rand0, t.rand1)) = some (0xB40A#16, 0x001#12, 0xB40#12) := by decide

/-- V-RNG-9 to 12. -/
theorem test_lfsr : lfsr 0x0001#16 = 0xB400#16 ∧ lfsr 0xFFFF#16 = 0xCBFF#16 ∧ lfsr 0x8000#16 = 0x4000#16 ∧
    lfsr 0x0000#16 = 0x0000#16 := by decide

/-- V-RT-2: a re-arm reloads. -/
theorem test_rtarm_reloads : after (exec (.rtarm 0) (st [1, 0, 0, 0] false false)) (·.cnt) = some [3, 0, 0, 0] := by decide

/-- V-RT-4: id = NCNT. -/
theorem test_rtarm_out_of_range : after (exec (.rtarm 4) (st [1, 2, 0, 0] false false)) (·.cnt) = some [1, 2, 0, 0] := by
  decide

/-- V-RT-9: the last drum mode. -/
theorem test_rttick_drum : after (exec (.rttick 9) (st [1, 1, 1, 1] false false))
    (fun t => (t.cnt, t.chg, t.dtick, t.drumStep)) = some ([0, 0, 0, 0], true, true, true) := by decide

/-- V-RT-7: nothing to do clears CHG. -/
theorem test_rttick_clears_chg : after (exec (.rttick 0) (st [0, 0, 0, 0] true false))
    (fun t => (t.cnt, t.chg, t.dtick, t.drumStep)) = some ([0, 0, 0, 0], false, false, false) := by decide

/-- V-CTL-2. -/
theorem test_sreset :
    after (exec .sreset { st [2, 0, 3, 0] true true with rngState := 0xB40A#16, dcoFreq := 20000#16 })
      (fun t => (t.cnt, t.chg, t.dtick, t.rngState, t.dcoFreq)) =
    some ([0, 0, 0, 0], false, false, 0xB40A#16, 20000#16) := by decide

/-- V-CTL-3, V-CTL-4. -/
theorem test_reserved : after (exec .reserved6 (st [2, 0, 3, 0] true false)) (fun t => (t.cnt, t.chg)) =
      some ([2, 0, 3, 0], true) ∧
    after (exec .reservedF (st [2, 0, 3, 0] true false)) (fun t => (t.cnt, t.chg)) = some ([2, 0, 3, 0], true) := by decide

/-! ## Reset, step and read port -/

/-- R35. -/
theorem test_reset : State.reset.rngState = 42#16 ∧ State.reset.cnt = [0, 0, 0, 0] ∧ State.reset.status = 0#2 := by decide

/-- The first step after reset runs the word that is presented. -/
theorem test_first_step : after (step (State.reset.withFetchWord 32 0x20000000)) (·.rngState) = some 0xB40A#16 := by decide

/-- R200: a command presented while rst is high is not taken. -/
theorem test_rst_step :
    after (step { st [3, 0, 0, 0] true false with
        port := { Port.quiet with rstPin := [true], hostQueue := [0x20000000#32] } })
      (fun t => (t.rngState, t.cnt, t.port.hostQueue)) = some (0x002A#16, [0, 0, 0, 0], [0x20000000#32]) := by decide

/-- P3 lines 8 to 10; P4 lines 11 to 13. -/
theorem test_read_port :
    readPort (st [0, 2, 0, 0] true true) 0x80#8 = 0x9C40#16 ∧ readPort (st [0, 2, 0, 0] true true) 0xE0#8 = 0x4E20#16 ∧
    readPort (st [0, 2, 0, 0] true true) 0xE1#8 = 0#16 ∧ readPort (st [0, 2, 0, 0] true true) 0x04#8 = 3#16 ∧
    readPort (st [0, 2, 0, 0] true true) 0x11#8 = 2#16 ∧ readPort (st [0, 2, 0, 0] true true) 0x14#8 = 0#16 ∧
    readPort (st [0, 2, 0, 0] true true) 0x05#8 = 2#16 := by decide

/-! ## The assembler (R80, R82; P1 and P3) -/

theorem test_assemble_bend :
    assembleLine 2 ['D', 'C', 'O', 'C', 'V', 'T', ' ', '2', '4', ',', ' ', '-', '1', ' ', ';', 'x'] =
      some [0x10063FFF#32] := by decide
theorem test_assemble_pseudo :
    assembleLines 2 [['R', 'T', 'A', 'R', 'M', '.', 'P', ' ', '0'], [';'], ['R', 'T', 'T', 'I', 'C', 'K', ' ', '0', 'x', 'A']] =
      some [0x30000002#32, 0x4000000A#32] := by decide
theorem test_assemble_rejects :
    assembleLine 2 ['R', 'T', 'A', 'R', 'M', ' ', '1', '6'] = none ∧
    assembleLine 2 ['R', 'T', 'A', 'R', 'M', '.', 'P', ' ', '2'] = none := by decide

/-! ## The host contract (R103, R111, R158, R173, R207) -/

theorem test_host_contract :
    monoCountdown 2 = some 0 ∧ monoCountdown 3 = some 1 ∧ monoCountdown 4 = none ∧
    armsOnNoteOn false false = true ∧ armsOnNoteOn false true = false ∧ armsOnNoteOff true false = true ∧
    polyCountdown 1 true = some 3 ∧ polyCountdown 1 false = none ∧
    edgeForcingGate true true = false ∧ edgeForcingGate true false = true ∧ edgeForcingGate false true = true ∧
    polyGate true = false ∧
    issuesSessionReset 2 3 = false ∧ issuesSessionReset 3 2 = false ∧ issuesSessionReset 3 4 = true ∧
    issuesSessionReset 4 4 = false := by decide

theorem test_random_gates :
    ({ st [0, 0, 0, 0] false false with rand0 := 0x001#12, rand1 := 0xB40#12 }).randomGate 0 = true ∧
    ({ st [0, 0, 0, 0] false false with rand0 := 0x001#12, rand1 := 0xB40#12 }).randomGate 1 = false := by decide

theorem test_tick_times : tickTime tc1 4 1 = 4 ∧ tickTime tc1 4 3 = 24 := by decide

/-! ## Witnesses: for each statement with hypotheses, a state and operands that meet them, at the ends of each clause -/

/-- The pins with one command from the host. -/
def hostPresents (w : Word) : Port := { Port.quiet with hostQueue := [w] }

/-- A state whose countdown file is full and whose host presents a command. -/
def busy (w : Word) : State := { st [3, 2, 1, 0] true false with port := hostPresents w }

theorem witness_PowerOnResetWritesEveryRegister :
    ({ busy 0x20000000#32 with port := { hostPresents 0x20000000#32 with rstPin := [true, false] } }).port.rstPin.head? =
      some true := by decide

theorem witness_ResetStateIsPowerOnState :
    ∃ s : State, s.cfg = Config.hardware ∧ s.port.rstPin.head? = some true ∧ s ≠ State.reset :=
  ⟨{ State.reset with rngState := 7#16, port := { Port.quiet with rstPin := [true] } }, rfl, rfl,
    fun h => absurd (congrArg State.rngState h) (by decide)⟩

theorem witness_NopLeavesState : (0x0FFFFFFF#32).extractLsb' 28 4 = 0x0#4 := by decide

theorem witness_ReservedOpcodesExecuteAsNop :
    0x6#4 ≤ (0x60000000#32).extractLsb' 28 4 ∧ 0x6#4 ≤ (0xFFFFFFFF#32).extractLsb' 28 4 ∧
    ¬ 0x6#4 ≤ (0x5FFFFFFF#32).extractLsb' 28 4 := by decide

theorem witness_SresetClearsCountdownsAndStatus : (0x5000FFFF#32).extractLsb' 28 4 = 0x5#4 := by decide

/-- The last in-range id, and the first that is not. -/
theorem witness_RtarmLoadsRetrigTicks :
    (0x30000003#32).extractLsb' 28 4 = 0x3#4 ∧ (0x30000004#32).extractLsb' 28 4 = 0x3#4 ∧
    (busy 0#32).cnt.length = (busy 0#32).cfg.ncnt ∧ ((0x30000003#32).extractLsb' 0 4).toNat < (busy 0#32).cfg.ncnt ∧
    (busy 0#32).cfg.ncnt ≤ ((0x30000004#32).extractLsb' 0 4).toNat := by decide

/-- Zero and nonzero countdowns, and the modes on both sides of the drum modes. -/
theorem witness_RttickDecrementsAndReports :
    (0x40000007#32).extractLsb' 28 4 = 0x4#4 ∧ (0x40000009#32).extractLsb' 28 4 = 0x4#4 ∧
    (0x40000006#32).extractLsb' 0 4 = 6#4 ∧ (0x4000000A#32).extractLsb' 0 4 = 10#4 ∧
    (busy 0#32).cnt[0]? = some 3#8 ∧ (busy 0#32).cnt[3]? = some 0#8 := by decide

theorem witness_ArmedForExactlyRetrigTicks :
    (busy 0#32).cnt.length = (busy 0#32).cfg.ncnt ∧ 3 < (busy 0#32).cfg.ncnt ∧
    Instr.rtarm 3 ∉ [Instr.rttick 0, .rtarm 2, .rngdraw, .rttick 7] ∧
    Instr.sreset ∉ [Instr.rttick 0, .rtarm 2, .rngdraw, .rttick 7] := by decide

/-- Each of the four ways a countdown changes. -/
theorem witness_CountdownChangesOnlyByRule :
    (busy 0#32).cnt.length = (busy 0#32).cfg.ncnt ∧ (busy 0#32).cnt[1]? = some 2#8 ∧
    after (step { busy 0#32 with port := { Port.quiet with rstPin := [true] } }) (·.cnt[1]?) = some (some 0#8) ∧
    after (step (busy 0x30000001#32)) (·.cnt[1]?) = some (some 3#8) ∧
    after (step (busy 0x50000000#32)) (·.cnt[1]?) = some (some 0#8) ∧
    after (step (busy 0x40000000#32)) (·.cnt[1]?) = some (some 1#8) := by decide

/-- Pitches on both sides of 0: `DCOCVT 24, 0` and `DCOCVT 24, -1` (V-DCO-1, V-DCO-15). -/
theorem witness_DcocvtWritesInterpolatedCount :
    (0x10060000#32).extractLsb' 28 4 = 0x1#4 ∧ (0x10063FFF#32).extractLsb' 28 4 = 0x1#4 ∧
    pitch tc1 24 0 = 0 ∧ pitch tc1 24 (-1) = -1 := by decide

theorem witness_OctaveLoopsMeetClosedForm :
    (-(1536 * ((16 : Nat) : Int)) ≤ -24576 ∧ (-24576 : Int) < 1536 * ((0 : Nat) + 1 : Int)) ∧
    (-(1536 * ((0 : Nat) : Int)) ≤ 24575 ∧ (24575 : Int) < 1536 * ((15 : Nat) + 1 : Int)) ∧
    ((-1664 : Int) < 0 ∧ 0 ≤ (-1664 : Int) + 1536 * (2 : Nat) ∧ (-1664 : Int) + 1536 * (2 : Nat) < 1536) := by decide

theorem witness_PitchAndLoopsBounded :
    (Instr.dcocvt 127 8191).wellFormed = true ∧ (Instr.dcocvt 0 (-8192)).wellFormed = true := by decide

/-- Weight 0 occurs. -/
theorem witness_InterpolationBetweenEntries : weight 0 = 0 ∧ weight 1535 = 15 := by decide

theorem witness_OctaveUpHalvesCount : 0 ≤ pitch tc1 24 0 ∧ pitch tc1 23 0 < 0 := by decide

theorem witness_CountFallsWithinOctave :
    (0 : Int) ≤ 0 ∧ (0 : Int) ≤ 1535 ∧ octaveCount 0 = octaveCount 1535 ∧ octaveCount 1536 = octaveCount 3071 := by decide

/-- The octave step falls in TC1, and rises with a table that stays too high: LUT[88] >> 0 < LUT[0] >> 1. -/
theorem witness_ZeroBendFallsAcrossOctaveIff :
    (0 ≤ 11 ∧ 11 ≤ 11) ∧ tc1.lut[0] >>> 1 ≤ tc1.lut[88] >>> 0 ∧
    ∃ c : Config, ¬ c.lut[0] >>> 1 ≤ c.lut[88] >>> 0 :=
  ⟨by decide, by decide,
    { toParams := { tc1Params with lut := (Vector.replicate 97 0#16).set 0 40000#16 }, wellFormed := by decide }, by decide⟩

theorem witness_RngdrawAdvancesTwice : (0x2ABCDEF0#32).extractLsb' 28 4 = 0x2#4 := by decide

theorem witness_LfsrStepByBits : 0 < 16 ∧ 15 < 16 := by decide

theorem witness_LfsrKeepsNonzero : (0x0001#16 : Half) ≠ 0#16 ∧ (0x0001#16).getLsbD 0 = true := by decide

/-- The numbers of steps and of draws at both ends of 1..65534, and a nonzero state. -/
theorem witness_LfsrPeriodIsFull : (0 < 1 ∧ 1 < 65535) ∧ (0 < 65534 ∧ 65534 < 65535) ∧ (0xFFFF#16 : Half) ≠ 0#16 := by
  decide

theorem witness_DrawsDependOnlyOnTheirNumber : 0 < drawCount [.rngdraw, .sreset] ∧ drawCount [.nop] = 0 := by decide

theorem witness_StepRunsTheAcceptedCommand :
    (busy 0x20000000#32).port.rstPin.head? ≠ some true ∧ (busy 0x20000000#32).port.hostQueue = [0x20000000#32] ∧
    (busy 0x20000000#32).port.timerQueue = [] ∧
    ({ Port.quiet with rstPin := [false], timerQueue := [0x40000000#32] }).rstPin.head? ≠ some true ∧
    ({ Port.quiet with timerQueue := [0x40000000#32] }).hostQueue = [] := by decide

/-- A state in which both issuers present. -/
def coincidence : State :=
  { st [1, 0, 0, 0] false false with
    port := { Port.quiet with hostQueue := [0x30000000#32], timerQueue := [0x40000000#32] } }

theorem witness_CoincidenceTakesOneIssuer :
    coincidence.port.rstPin.head? ≠ some true ∧ coincidence.port.hostQueue = 0x30000000#32 :: [] ∧
    coincidence.port.timerQueue = 0x40000000#32 :: [] := by decide

/-- The two orders differ here: a re-arm before the tick leaves 2, after it 3. -/
theorem witness_CoincidentCommandsRunInSomeOrder :
    coincidence.port.rstPin = [] ∧ coincidence.port.hostQueue = [0x30000000#32] ∧
    coincidence.port.timerQueue = [0x40000000#32] ∧
    after (runCommands [.rtarm 0, .rttick 0] coincidence) (·.cnt[0]?) = some (some 2#8) ∧
    after (runCommands [.rttick 0, .rtarm 0] coincidence) (·.cnt[0]?) = some (some 3#8) := by decide

theorem witness_IdleClockHoldsRegisters :
    (st [1, 0, 0, 0] true true).port.rstPin.head? ≠ some true ∧ (st [1, 0, 0, 0] true true).port.hostQueue = [] ∧
    (st [1, 0, 0, 0] true true).port.timerQueue = [] := by decide

/-- The strobe after a drum tick, and its absence after another. -/
theorem witness_StrobeHighExactlyAfterDrumTick :
    after (step (busy 0x40000009#32)) (·.outputs.drumStep) = some true ∧
    after (step (busy 0x4000000A#32)) (·.outputs.drumStep) = some false := by decide

/-- Every register is changed by some command. -/
theorem witness_OnlyListedCommandsWriteARegister :
    after (exec .rngdraw (st [1, 0, 0, 0] true true)) (fun t => (t.rngState != 0x002A#16, t.rand0 != 0#12, t.rand1 != 0#12)) =
      some (true, true, true) ∧
    after (exec (.dcocvt 24 0) (st [1, 0, 0, 0] true true)) (fun t => t.dcoFreq != 0#16) = some true ∧
    after (exec .sreset (st [1, 0, 0, 0] true true)) (fun t => (t.status != 3#2, t.cnt != [1, 0, 0, 0])) = some (true, true) ∧
    after (exec (.rttick 8) (st [1, 0, 0, 0] false false)) (fun t => (t.status != 0#2, t.drumStep, t.cnt != [1, 0, 0, 0])) =
      some (true, true, true) ∧
    after (exec (.rtarm 1) (st [1, 0, 0, 0] true true)) (fun t => t.cnt != [1, 0, 0, 0]) = some true := by decide

theorem witness_ConfigurationNeverChanges :
    (∃ t : State, Sys2Proof.core.run 3 (busy 0x20000000#32) = .next t) ∧
    ((6#8 ≤ 6#8 ∧ 6#8 ≤ 9#8) ∨ 0x80#8 ≤ 6#8) ∧ ((6#8 ≤ 0x80#8 ∧ 0x80#8 ≤ 9#8) ∨ 0x80#8 ≤ 0x80#8) :=
  ⟨⟨_, rfl⟩, by decide, by decide⟩

/-- A busy state has the invariant, with a countdown at its bound and a drum strobe high. -/
theorem witness_StepKeepsInvariant :
    ({ busy 0x10060000#32 with status := 3#2, drumStep := true, dcoFreq := 40000#16 }).Inv ∧
    ∃ t : State, step { busy 0x10060000#32 with status := 3#2, drumStep := true, dcoFreq := 40000#16 } = .next t :=
  ⟨⟨by decide, by decide, by decide, by decide, by decide, by decide⟩, _, rfl⟩

theorem witness_RandBelongsToLfsrState :
    (busy 0x20000000#32).RandFromDraw ∧ ∃ t : State, step (busy 0x20000000#32) = .next t ∧ t.rngState = 0xB40A#16 :=
  ⟨.inl ⟨by decide, by decide, by decide⟩, _, rfl, by decide⟩

theorem witness_DecodeOfEncode :
    (Instr.dcocvt 127 (-8192)).wellFormed = true ∧ (Instr.dcocvt 0 8191).wellFormed = true ∧
    (Instr.rtarm 15).wellFormed = true ∧ (Instr.rttick 0).wellFormed = true ∧ Instr.reservedF.wellFormed = true := by decide

theorem witness_ByteLinkIsBigEndian : ([0x10#8, 0x00#8, 0x00#8] : List Byte).length < 4 := by decide

/-- The words of R80's table at both ends of each operand's range. -/
theorem witness_AssemblerEmitsCanonicalWords :
    14 ≤ 14 ∧ assemble 14 (.rtarmPoly 13) = some 0x3000000F#32 ∧ assemble 2 (.dcocvt 24 (-1)) = some 0x10063FFF#32 ∧
    ((0 : Int) ≤ 0 ∧ (0 : Int) ≤ 15 ∧ assemble 2 (.rtarm 0) = some 0x30000000#32 ∧
      assemble 2 (.rttick 0) = some 0x40000000#32) ∧
    ((0 : Int) ≤ 15 ∧ (15 : Int) ≤ 15 ∧ assemble 2 (.rtarm 15) = some 0x3000000F#32 ∧
      assemble 2 (.rttick 15) = some 0x4000000F#32) ∧
    ((-8192 : Int) ≤ -8192 ∧ (-8192 : Int) ≤ 8191 ∧ assemble 2 (.dcocvt 0 (-8192)) = some 0x10002000#32) ∧
    ((-8192 : Int) ≤ 8191 ∧ (127 : Int) ≤ 127 ∧ assemble 2 (.dcocvt 127 8191) = some 0x101FDFFF#32) := by decide

/-- The ends of each condition, on both sides. -/
theorem witness_PseudoInstructionsExpand :
    2 ≤ 14 ∧ (0 ≤ 1 ∧ 1 ≤ 1 ∧ expand 2 (.rtarmMono 1) = some (.rtarm 1)) ∧
    ((-1 : Int) < 0 ∧ (1 : Int) < 2 ∧ expand 2 (.rtarmMono 2) = none) ∧
    (0 < 2 ∧ 1 < 2 ∧ expand 2 (.rtarmPoly 1) = some (.rtarm 3)) ∧
    (((2 : Nat) : Int) ≤ 2 ∧ expand 2 (.rtarmPoly 2) = none ∧ expand 2 (.rtarmPoly (-1)) = none) ∧
    ((0 : Int) ≤ 0 ∧ (127 : Int) ≤ 127 ∧ expand 2 (.dcocvtNote 127) = some (.dcocvt 127 0)) ∧
    ((127 : Int) < 128 ∧ expand 2 (.dcocvtNote 128) = none ∧ expand 2 (.dcocvtNote (-1)) = none) := by decide

/-- The addresses at both ends of each range of the map. -/
theorem witness_ReadPortMap :
    (busy 0#32).cnt.length = (busy 0#32).cfg.ncnt ∧ 0x0A#8 ≤ 0x0F#8 ∧ 0x10#8 ≤ 0x1F#8 ∧
    (busy 0#32).cnt[(0x13#8).toNat - 0x10]? = some 0#8 ∧ (busy 0#32).cfg.ncnt ≤ (0x14#8).toNat - 0x10 ∧
    (busy 0#32).cfg.ncnt ≤ (0x1F#8).toNat - 0x10 ∧ 0x20#8 ≤ 0x7F#8 ∧ 0x80#8 ≤ 0xE0#8 ∧ 0xE1#8 ≤ 0xFF#8 := by decide

/-- Both sides of the equivalence occur: TC1 is a configuration, a rising table is none (test_config_refuses). -/
theorem witness_IllFormedConfigurationRefused :
    (Config.ofParams tc1Params).isSome = true ∧ tc1Params.lut[0]? = some 40000#16 ∧ tc1Params.lut[96]? = some 20000#16 := by
  decide

theorem witness_ArmedIntervalInTickPeriods :
    (busy 0#32).cnt.length = (busy 0#32).cfg.ncnt ∧ 0 < (busy 0#32).cfg.ncnt ∧ 0 < 1 ∧
    1 ≤ (busy 0#32).cfg.tickPeriod ∧ 10 ≤ (busy 0#32).cfg.tickPeriod := by decide

/-- The armed bits on both sides of a zero countdown and of NCNT, chg high, and a state in reset. -/
theorem witness_OutputPortsShowRegisters :
    (busy 0#32).cnt.length = (busy 0#32).cfg.ncnt ∧ (busy 0#32).cnt[0]? = some 3#8 ∧
    3 < (busy 0#32).cfg.ncnt ∧ (busy 0#32).cfg.ncnt ≤ 4 ∧
    (busy 0#32).outputs.armed = 0b0111#16 ∧ (busy 0#32).outputs.chg = true ∧
    ({ busy 0#32 with port := { Port.quiet with rstPin := [true] } }).port.rstPin.head? = some true := by decide

end Sys2Proof.Tests
end

section
/-! SUPPORT. The statements of 00_scope.md: which parameters make a configuration (R8), and what the step does when
one issuer presents a command (R13, R22, R32). -/

namespace Sys2Proof

open Sys2Proof.Machine

/-! ## Well-formed parameters (R8) -/

theorem Config.ofParams_isSome_iff (p : Params) : (Config.ofParams p).isSome = true ↔ p.WellFormed := by
  unfold Config.ofParams
  split
  next h => exact iff_of_true rfl h
  next h => exact iff_of_false Bool.false_ne_true h

/-- RETRIG_TICKS is a u8 other than zero: 1..255 (R6). -/
theorem count_ne_zero_iff (c : Count) : c ≠ 0#8 ↔ 1 ≤ c.toNat := by
  rw [Nat.one_le_iff_ne_zero, Ne, Ne, BitVec.toNat_eq, BitVec.toNat_zero]

/-- LUT[i] >= LUT[j] for any indices i <= j, not only for neighbours. -/
theorem Params.WellFormed.lut_antitone {p : Params} (h : p.WellFormed) (i j : Nat) (hij : i ≤ j) (a b : Half)
    (ha : p.lut[i]? = some a) (hb : p.lut[j]? = some b) : b ≤ a := by
  obtain ⟨hi, rfl⟩ := Vector.getElem?_eq_some_iff.mp ha
  obtain ⟨hj, rfl⟩ := Vector.getElem?_eq_some_iff.mp hb
  obtain ⟨d, rfl⟩ := Nat.exists_eq_add_of_le hij
  exact romRead_antitone ⟨p, h⟩ i d (by omega)

/-- R8's order of neighbours is the case j = i + 1 of the order of any two entries. -/
theorem Params.lut_succ_le_of_antitone {p : Params}
    (h : ∀ i j : Nat, i ≤ j → ∀ a b : Half, p.lut[i]? = some a → p.lut[j]? = some b → b ≤ a) (i : Fin 96) :
    p.lut[i.val + 1]'(by omega) ≤ p.lut[i.val]'(by omega) :=
  h i (i + 1) (Nat.le_succ _) _ _ (Vector.getElem?_eq_getElem _) (Vector.getElem?_eq_getElem _)

/-- Settles O45: a configuration is made of well-formed parameters only, and R8's order of neighbours is the order of
any two entries of the table. -/
theorem illFormedConfigurationRefused : Obligations.IllFormedConfigurationRefused := by
  intro p
  rw [Config.ofParams_isSome_iff]
  constructor
  · intro h
    have hlut := Params.WellFormed.lut_antitone h
    obtain ⟨⟨hpLo, hpHi⟩, hticks, href, hbend, hperiod, -⟩ := h
    exact ⟨hpLo, hpHi, (count_ne_zero_iff _).mp hticks, href, hbend, hperiod, hlut⟩
  · rintro ⟨hpLo, hpHi, hticks, href, hbend, hperiod, hlut⟩
    exact ⟨⟨hpLo, hpHi⟩, (count_ne_zero_iff _).mpr hticks, href, hbend, hperiod,
      Params.lut_succ_le_of_antitone hlut⟩

/-! ## The accepted command (R13, R22, R32) -/

/-- Settles O23: the port takes the word of the only issuer that presents one, and the step runs it. -/
theorem stepRunsTheAcceptedCommand : Obligations.StepRunsTheAcceptedCommand := by
  intro s w ws hrst
  have hlow : s.port.rst = false := rst_eq_false hrst
  constructor
  · intro hhost htimer
    rw [step_of_some s _ w hlow (takeCommand_host s.port.nextClock w ws hhost htimer), State.withPort,
      Port.nextClock, htimer]
  · intro hhost htimer
    rw [step_of_some s _ w hlow (takeCommand_timer s.port.nextClock w ws hhost htimer), State.withPort,
      Port.nextClock, hhost]

end Sys2Proof
end

section
/-! SUPPORT. The statements of 10_state.md: the registers and what writes them (R20 to R29), the invariant of the block,
the read port and the output ports (R30, R32), the two issuers (R33) and the reset state (R35). First the lemmas they
share, in the order of the definitions they speak of; then the statements. -/

namespace Sys2Proof

/-! ## The configuration's ranges (R6, R8) -/

theorem Config.nPoly_le (c : Config) : c.nPoly ≤ 14 := c.wellFormed.1.2

theorem Config.refNote_le (c : Config) : c.refNote ≤ 127 := c.wellFormed.2.2.1

theorem Config.bendShift_le (c : Config) : c.bendShift ≤ 13 := c.wellFormed.2.2.2.1

/-- NCNT is at most 16, so the ARMED word and the read port's sixteen addresses hold the whole file. -/
theorem Config.ncnt_le (c : Config) : c.ncnt ≤ 16 := by
  have := c.nPoly_le
  unfold Config.ncnt
  omega

/-! ## The opcode of a decoded word (R75) -/

theorem opcode_decode (w : Word) : (decode w).opcode = opField w := by
  apply decode_elim (P := fun w i => i.opcode = opField w) <;> exact fun _ hop => hop.symm

theorem decode_eq_rttick_iff (w : Word) (mode : Nat) :
    decode w = .rttick mode ↔ opField w = 0x4#4 ∧ xField w = mode := by
  constructor
  · intro h
    have hop : opField w = 0x4#4 := by rw [← opcode_decode, h, Instr.opcode]
    rw [decode_op4 w hop] at h
    exact ⟨hop, Instr.rttick.inj h⟩
  · rintro ⟨hop, rfl⟩
    exact decode_op4 w hop

end Sys2Proof

namespace Sys2Proof.Machine

/-! ## The drum modes (R107) -/

theorem isDrumMode_xField_iff (w : Word) :
    isDrumMode (xField w) = true ↔
      w.extractLsb' 0 4 = 7#4 ∨ w.extractLsb' 0 4 = 8#4 ∨ w.extractLsb' 0 4 = 9#4 := by
  simp [isDrumMode, xField, BitVec.toNat_eq, or_assoc]

/-! ## The LFSR never reaches 0 (R155) -/

/-- Bit 15 comes from the mask alone: the shift leaves it clear. -/
theorem lfsr_getLsbD_fifteen (x : Half) (h : x.getLsbD 0 = true) : (lfsr x).getLsbD 15 = true := by
  rw [lfsr_of_low x h, BitVec.getLsbD_xor, BitVec.getLsbD_ushiftRight, BitVec.getLsbD_of_ge x (1 + 15) (Nat.le_refl _)]
  decide

theorem lfsr_ne_zero {x : Half} (hx : x ≠ 0#16) : lfsr x ≠ 0#16 := by
  intro hzero
  cases hlow : x.getLsbD 0 with
  | true =>
    have htop := lfsr_getLsbD_fifteen x hlow
    rw [hzero] at htop
    exact absurd htop (by decide)
  | false =>
    rw [lfsr_of_not_low x hlow] at hzero
    apply hx
    refine BitVec.eq_of_getLsbD_eq fun i _ => ?_
    cases i with
    | zero => rw [hlow, BitVec.getLsbD_zero]
    | succ i =>
      rw [Nat.add_comm, ← BitVec.getLsbD_ushiftRight, hzero, BitVec.getLsbD_zero, BitVec.getLsbD_zero]

/-! ## The DCO count is bounded by LUT[0] (R125, R126) -/

theorem dcoCount_le_lut_zero (c : Config) (p : Int) : dcoCount c p ≤ c.lut[0] := by
  have hindex : subOctave p / 16 ≤ 96 := by
    have := subOctave_lt p
    omega
  have hentry : (romRead c (subOctave p / 16) hindex).toNat ≤ c.lut[0].toNat := by
    simpa [romRead] using romRead_antitone c 0 (subOctave p / 16) (by omega)
  rw [BitVec.le_def, dcoCount_toNat, interpolatedCount_eq]
  exact ((Nat.div_le_self _ _).trans (interpolate_le _ _ _)).trans hentry

/-! ## The ARMED word, as far as the countdown file goes (R27) -/

theorem armedWord_getLsbD_iff {s : State} (hsize : s.cnt.length = s.cfg.ncnt) (k : Nat) :
    s.armedWord.getLsbD k = true ↔ k < s.cfg.ncnt ∧ ∃ c, s.cnt[k]? = some c ∧ c ≠ 0#8 := by
  rw [armedWord_getLsbD, Bool.and_eq_true, decide_eq_true_iff, armed_iff]
  refine and_congr_left fun ⟨c, hc, _⟩ => ?_
  have hk : k < s.cfg.ncnt := hsize ▸ (List.getElem?_eq_some_iff.mp hc).1
  exact iff_of_true (Nat.lt_of_lt_of_le hk s.cfg.ncnt_le) hk

theorem State.powerOn_armedWord (s : State) : s.powerOn.armedWord = 0#16 := by
  refine BitVec.eq_of_getLsbD_eq fun k _ => ?_
  rw [BitVec.getLsbD_zero, Bool.eq_false_iff, Ne, armedWord_getLsbD_iff (by simp)]
  rintro ⟨-, c, hc, hne⟩
  exact hne (List.eq_of_mem_replicate (List.mem_of_getElem? hc))

/-! ## STATUS as the read port shows it (R26, R30) -/

theorem status_setWidth_getLsbD (s : State) (i : Nat) :
    (s.status.setWidth 16).getLsbD i = ((i == 0 && s.chg) || (i == 1 && s.dtick)) := by
  rw [BitVec.getLsbD_setWidth, State.chg, State.dtick]
  match i with
  | 0 => simp
  | 1 => simp
  | i + 2 => simp [BitVec.getLsbD_of_ge]

/-! ## The read port depends on the configuration alone where it shows it (R28, R30) -/

theorem readRegister_of_ge {s : State} {i : Nat} (h : 0x0A ≤ i) : readRegister s i = 0#16 := by
  match i, h with
  | i + 10, _ => rfl

theorem readPort_congr_cfg {s t : State} (hcfg : t.cfg = s.cfg) (a : BitVec 8)
    (ha : (6#8 ≤ a ∧ a ≤ 9#8) ∨ 0x80#8 ≤ a) : readPort t a = readPort s a := by
  obtain ⟨hlo, hhi⟩ | htable := ha
  · have hrange : a.toNat = 6 ∨ a.toNat = 7 ∨ a.toNat = 8 ∨ a.toNat = 9 := by bv_omega
    rw [readPort_register t a (by omega), readPort_register s a (by omega)]
    obtain h | h | h | h := hrange <;> simp only [h, readRegister, hcfg]
  · rw [readPort_table t a htable, readPort_table s a htable, hcfg]

/-! ## Two commands presented in one step (R33, R183) -/

theorem takeCommand_both (p : Port) (h t : Word) (hs ts : List Word) (hhost : p.hostQueue = h :: hs)
    (htimer : p.timerQueue = t :: ts) :
    p.takeCommand = (some h, { p with hostQueue := hs, arbCount := p.arbCount + 1 }) ∨
      p.takeCommand = (some t, { p with timerQueue := ts, arbCount := p.arbCount + 1 }) := by
  cases harb : Config.arbitration p.arbCount with
  | host => exact .inl (by simp [Port.takeCommand, hhost, htimer, harb])
  | timer => exact .inr (by simp [Port.takeCommand, hhost, htimer, harb])

/-! ## What a command can do, said once -/

/-- The five commands that write registers, and every other one, which only lowers the strobe. -/
theorem exec_cases {i : Instr} {s t : State} (h : exec i s = .next t) :
    t = s.withDrumStep false ∨
      (∃ note bend, i = .dcocvt note bend ∧
        t = (s.withDcoFreq (dcoCount s.cfg (pitch s.cfg note bend))).withDrumStep false) ∨
      (i = .rngdraw ∧
        t = (s.withRng (lfsr (lfsr s.rngState)) (derivedValue (lfsr s.rngState))
          (derivedValue (lfsr (lfsr s.rngState)))).withDrumStep false) ∨
      (∃ id, i = .rtarm id ∧ t = (s.arm id).withDrumStep false) ∨
      (∃ mode, i = .rttick mode ∧
        t = ((s.withCnt (s.cnt.map tickCount)).withStatus
          (tickStatus (anyArmed s.cnt) (isDrumMode mode))).withDrumStep (isDrumMode mode)) ∨
      (i = .sreset ∧ t = s.sessionReset.withDrumStep false) := by
  have ht {u : State} (hu : exec i s = .next u) : t = u := Host.Outcome.next.inj (h.symm.trans hu)
  cases i with
  | dcocvt note bend => exact .inr (.inl ⟨note, bend, rfl, ht rfl⟩)
  | rngdraw => exact .inr (.inr (.inl ⟨rfl, ht rfl⟩))
  | rtarm id => exact .inr (.inr (.inr (.inl ⟨id, rfl, ht rfl⟩)))
  | rttick mode => exact .inr (.inr (.inr (.inr (.inl ⟨mode, rfl, ht rfl⟩))))
  | sreset => exact .inr (.inr (.inr (.inr (.inr ⟨rfl, ht rfl⟩))))
  | _ => exact .inl (ht rfl)

/-- R32: the strobe follows a command exactly when it is an RTTICK that steps the drums. -/
theorem exec_drumStep_iff {i : Instr} {s t : State} (h : exec i s = .next t) :
    t.drumStep = true ↔ ∃ mode, i = .rttick mode ∧ isDrumMode mode = true := by
  constructor
  · obtain rfl | ⟨note, bend, rfl, rfl⟩ | ⟨rfl, rfl⟩ | ⟨id, rfl, rfl⟩ | ⟨mode, rfl, rfl⟩ | ⟨rfl, rfl⟩ := exec_cases h
    · exact nofun
    · exact nofun
    · exact nofun
    · exact nofun
    · exact fun hdrum => ⟨mode, rfl, hdrum⟩
    · exact nofun
  · rintro ⟨mode, rfl, hdrum⟩
    rw [exec_rttick] at h
    rw [← Host.Outcome.next.inj h, State.withDrumStep_drumStep, hdrum]

/-! ## Steps and runs -/

theorem step_keeps_cfg {s t : State} (h : step s = .next t) : t.cfg = s.cfg := by
  obtain ⟨-, rfl⟩ | ⟨-, p, -, rfl⟩ | ⟨-, w, p, -, hexec⟩ := step_cases h
  · rfl
  · rfl
  · exact (exec_keeps_cfg_port hexec).1

/-- What every step of a machine keeps, every run of it keeps. -/
theorem run_keeps {M : Host.Core} {P : M.State → Prop} (hstep : ∀ s t, P s → M.step s = .next t → P t) (n : Nat)
    {s t : M.State} (hs : P s) (hrun : M.run n s = .next t) : P t := by
  induction n generalizing s with
  | zero =>
    cases hrun
    exact hs
  | succ n ih =>
    rw [Host.Core.run] at hrun
    split at hrun
    next u hu => exact ih (hstep s u hs hu) hrun
    next => cases hrun
    next => cases hrun

/-! ## The invariant, one rule for each write -/

variable {s : State}

theorem State.Inv.withPort (hs : s.Inv) (p : Port) : (s.withPort p).Inv :=
  ⟨hs.fileSize, hs.countsBounded, hs.rngNonzero, hs.drumIsChange, hs.strobeRecorded, hs.dcoBounded⟩

theorem State.Inv.lowerStrobe (hs : s.Inv) : (s.withDrumStep false).Inv :=
  ⟨hs.fileSize, hs.countsBounded, hs.rngNonzero, hs.drumIsChange, nofun, hs.dcoBounded⟩

theorem State.Inv.withDcoFreq (hs : s.Inv) {v : Half} (hv : v ≤ s.cfg.lut[0]) : (s.withDcoFreq v).Inv :=
  ⟨hs.fileSize, hs.countsBounded, hs.rngNonzero, hs.drumIsChange, hs.strobeRecorded, hv⟩

theorem State.Inv.withRng (hs : s.Inv) {v : Half} (hv : v ≠ 0#16) (r0 r1 : Rand) : (s.withRng v r0 r1).Inv :=
  ⟨hs.fileSize, hs.countsBounded, hv, hs.drumIsChange, hs.strobeRecorded, hs.dcoBounded⟩

theorem State.Inv.withCnt (hs : s.Inv) {cnt : List Count} (hsize : cnt.length = s.cfg.ncnt)
    (hbound : ∀ c ∈ cnt, c ≤ s.cfg.retrigTicks) : (s.withCnt cnt).Inv :=
  ⟨hsize, hbound, hs.rngNonzero, hs.drumIsChange, hs.strobeRecorded, hs.dcoBounded⟩

/-- R26, R105: STATUS and the strobe are written together, as a tick or a reset does. -/
theorem State.Inv.withStatus_withDrumStep (hs : s.Inv) (any drum : Bool) :
    ((s.withStatus (tickStatus any drum)).withDrumStep drum).Inv where
  fileSize := hs.fileSize
  countsBounded := hs.countsBounded
  rngNonzero := hs.rngNonzero
  drumIsChange := by
    rw [State.dtick_withDrumStep, State.chg_withDrumStep, dtick_tickStatus, chg_tickStatus]
    rintro rfl
    exact Bool.or_true any
  strobeRecorded := by
    rw [State.dtick_withDrumStep, dtick_tickStatus, State.withDrumStep_drumStep]
    exact id
  dcoBounded := hs.dcoBounded

theorem le_of_mem_replicate_zero (n : Nat) (d c : Count) (hc : c ∈ List.replicate n 0#8) : c ≤ d :=
  List.eq_of_mem_replicate hc ▸ Nat.zero_le _

theorem State.Inv.arm (hs : s.Inv) (id : Nat) : (s.arm id).Inv := by
  unfold State.arm
  split
  · refine hs.withCnt (by rw [List.length_set, hs.fileSize]) fun c hc => ?_
    obtain hold | rfl := List.mem_or_eq_of_mem_set hc
    · exact hs.countsBounded c hold
    · exact BitVec.le_refl _
  · exact hs

theorem State.Inv.tickCounts (hs : s.Inv) : (s.withCnt (s.cnt.map tickCount)).Inv := by
  refine hs.withCnt (by rw [List.length_map, hs.fileSize]) fun c hc => ?_
  obtain ⟨c₀, hmem, rfl⟩ := List.mem_map.mp hc
  exact BitVec.le_trans (tickCount_le c₀) (hs.countsBounded c₀ hmem)

/-- R171: STATUS 0 is the word of a tick that found nothing to do. -/
theorem State.Inv.sessionReset (hs : s.Inv) : (s.sessionReset.withDrumStep false).Inv :=
  (hs.withCnt (List.length_replicate ..) (le_of_mem_replicate_zero _ _)).withStatus_withDrumStep false false

/-- R35: the power-on reset establishes the invariant, whatever the state before it. -/
theorem State.powerOn_inv (s : State) : s.powerOn.Inv where
  fileSize := List.length_replicate ..
  countsBounded := le_of_mem_replicate_zero _ _
  rngNonzero := fun h : 0x002A#16 = 0#16 => absurd h (by decide)
  drumIsChange := fun h => absurd ((State.dtick_of_status_zero rfl).symm.trans h) Bool.false_ne_true
  strobeRecorded := nofun
  dcoBounded := Nat.zero_le _

theorem exec_keeps_inv {i : Instr} {t : State} (hs : s.Inv) (h : exec i s = .next t) : t.Inv := by
  obtain rfl | ⟨note, bend, -, rfl⟩ | ⟨-, rfl⟩ | ⟨id, -, rfl⟩ | ⟨mode, -, rfl⟩ | ⟨-, rfl⟩ := exec_cases h
  · exact hs.lowerStrobe
  · exact (hs.withDcoFreq (dcoCount_le_lut_zero _ _)).lowerStrobe
  · exact (hs.withRng (lfsr_ne_zero (lfsr_ne_zero hs.rngNonzero)) _ _).lowerStrobe
  · exact (hs.arm id).lowerStrobe
  · exact hs.tickCounts.withStatus_withDrumStep _ _
  · exact hs.sessionReset

/-! ## The reset state (R35, D12) -/

theorem reset_powerOn : State.reset.powerOn = State.reset := rfl

theorem powerOn_eq_reset (h : s.cfg = Config.hardware) : { s.powerOn with port := Port.quiet } = State.reset := by
  rw [State.powerOn, State.reset, h, rngSeed]

end Sys2Proof.Machine

namespace Sys2Proof

open Sys2Proof.Machine

/-! ## The statements -/

/-- Settles O32: the power-on reset establishes the invariant, an idle clock only lowers the strobe, and every command
keeps it. -/
theorem stepKeepsInvariant : Obligations.StepKeepsInvariant := by
  intro s t hs h
  obtain ⟨-, rfl⟩ | ⟨-, p, -, rfl⟩ | ⟨-, w, p, -, hexec⟩ := step_cases h
  · exact State.powerOn_inv _
  · exact (hs.withPort p).lowerStrobe
  · exact exec_keeps_inv (hs.withPort p) hexec

/-- Settles O33: the reset state is what a power-on reset leaves. -/
theorem resetHasInvariant : Obligations.ResetHasInvariant := by
  have h := State.powerOn_inv State.reset
  rwa [reset_powerOn] at h

/-- Settles O24, by the two answers of the free arbitration. -/
theorem coincidenceTakesOneIssuer : Obligations.CoincidenceTakesOneIssuer := by
  intro s h t hs ts hrst hhost htimer
  have hlow : s.port.rst = false := rst_eq_false hrst
  refine (takeCommand_both s.port.nextClock h t hs ts hhost htimer).imp (fun htake => ?_) fun htake => ?_
  · rw [step_of_some s _ h hlow htake, State.withPort, Port.nextClock, htimer]
  · rw [step_of_some s _ t hlow htake, State.withPort, Port.nextClock, hhost]

/-- Settles O27: a reset step and an idle clock leave the strobe low, and a command leaves it high exactly when its
word is an RTTICK in a drum mode. -/
theorem strobeHighExactlyAfterDrumTick : Obligations.StrobeHighExactlyAfterDrumTick := by
  intro s t h
  obtain ⟨hrst, rfl⟩ | ⟨-, p, hnone, rfl⟩ | ⟨hlow, w, p, hsome, hexec⟩ := step_cases h
  · simp [State.outputs, hrst]
  · simp [State.outputs, hnone]
  · have hstrobe : t.drumStep = true ↔ opField w = 0x4#4 ∧ isDrumMode (xField w) = true := by
      simp [exec_drumStep_iff hexec, decode_eq_rttick_iff, and_assoc]
    rw [State.outputs, hstrobe, isDrumMode_xField_iff, opField]
    simp [hlow, hsome]

/-- Settles O30, by the commands that write a register at all. -/
theorem onlyListedCommandsWriteARegister : Obligations.OnlyListedCommandsWriteARegister := by
  intro i s t h
  obtain rfl | ⟨note, bend, rfl, rfl⟩ | ⟨rfl, rfl⟩ | ⟨id, rfl, rfl⟩ | ⟨mode, rfl, rfl⟩ | ⟨rfl, rfl⟩ := exec_cases h
  · simp
  · simp
  · simp
  · have hcnt (k : Nat) (hne : (s.arm id).cnt[k]? ≠ s.cnt[k]?) : id = k := by
      by_contra hk
      exact hne (arm_getElem?_ne s id k (Ne.symm hk))
    simpa using hcnt
  · simp
  · simp

/-- Settles O31: the configuration is kept by every step, hence by every run, and decides what the read port shows at
the addresses named. -/
theorem configurationNeverChanges : Obligations.ConfigurationNeverChanges := by
  intro n s t hrun
  have hcfg : t.cfg = s.cfg :=
    run_keeps (M := core) (P := fun u : State => u.cfg = s.cfg) (fun _ _ hu h => (step_keeps_cfg h).trans hu) n rfl hrun
  exact ⟨hcfg, readPort_congr_cfg hcfg⟩

/-- Settles O44, range by range. -/
theorem readPortMap : Obligations.ReadPortMap := by
  intro s hsize
  have hpoly := s.cfg.nPoly_le
  have href := s.cfg.refNote_le
  have hbend := s.cfg.bendShift_le
  have hrand : 12 ≤ 16 := by decide
  have hcount : 8 ≤ 16 := by decide
  refine ⟨rfl, BitVec.toNat_setWidth_of_le hrand, BitVec.toNat_setWidth_of_le hrand, rfl, status_setWidth_getLsbD s,
    armedWord_getLsbD_iff hsize, BitVec.toNat_setWidth_of_le hcount, Nat.mod_eq_of_lt (by omega),
    Nat.mod_eq_of_lt (by omega), Nat.mod_eq_of_lt (by omega), ?_, ?_, ?_, ?_, ?_, ?_⟩
  · intro a hlo hhi
    rw [readPort_register s a (by bv_omega), readRegister_of_ge hlo]
  · intro a c hlo hhi hc
    rw [readPort_countdown s a hlo (by bv_omega), readCountdown, hc]
    exact BitVec.toNat_setWidth_of_le hcount
  · intro a hlo hhi habsent
    rw [readPort_countdown s a hlo (by bv_omega), readCountdown, List.getElem?_eq_none (hsize ▸ habsent)]
    rfl
  · intro a hlo hhi
    exact readPort_gap s a hlo (by bv_omega)
  · intro a hlo hhi
    have hindex : a.toNat - 0x80 ≤ 96 := by bv_omega
    rw [readPort_table s a hlo, readTable, dif_pos hindex, lut_getElem? s.cfg _ hindex]
  · intro a hlo
    rw [readPort_table s a (by bv_omega), readTable, dif_neg (by bv_omega)]

/-- Settles O47: the ports show the registers by definition, ARMED bit by bit, and the power-on values are 0. -/
theorem outputPortsShowRegisters : Obligations.OutputPortsShowRegisters := by
  constructor
  · exact fun s hsize => ⟨rfl, rfl, rfl, armedWord_getLsbD_iff hsize, rfl⟩
  · intro s hrst
    exact ⟨_, step_of_rst s ((rst_iff _).mpr hrst), rfl, rfl, rfl, State.powerOn_armedWord _,
      State.chg_of_status_zero rfl, rfl⟩

/-- Settles O2: the power-on values are State.reset's, given this hardware's configuration. -/
theorem resetStateIsPowerOnState : Obligations.ResetStateIsPowerOnState := by
  refine ⟨fun s hcfg hrst => ?_, rfl, rfl⟩
  exact ⟨_, step_of_rst s ((rst_iff _).mpr hrst), powerOn_eq_reset hcfg⟩

end Sys2Proof
end

section
/-! SUPPORT. The statements of 20_memory.md: the byte order of a byte-wide link (R53), and two commands presented in one
step, which both take effect (R60). First the lemmas they use: the bytes of a word, and what a command has to do with
the pins; then the statements. -/

namespace Sys2Proof

/-! ## The bytes of a word (R53) -/

/-- The four bytes of a command word put together again: each append closes the gap between adjacent fields. -/
theorem wordOfBytes_fields (w : Word) :
    wordOfBytes (w.extractLsb' 24 8) (w.extractLsb' 16 8) (w.extractLsb' 8 8) (w.extractLsb' 0 8) = w := by
  have htop : w.extractLsb' 24 8 ++ w.extractLsb' 16 8 = w.extractLsb' 16 16 :=
    BitVec.extractLsb'_append_extractLsb'_eq_extractLsb' rfl
  have hupper : w.extractLsb' 16 16 ++ w.extractLsb' 8 8 = w.extractLsb' 8 24 :=
    BitVec.extractLsb'_append_extractLsb'_eq_extractLsb' rfl
  have hall : w.extractLsb' 8 24 ++ w.extractLsb' 0 8 = w := BitVec.extractLsb'_append_extractLsb'
  rw [wordOfBytes, htop, hupper, hall]

theorem decodeBytes_commandBytes_append (w : Word) (rest : List Byte) :
    decodeBytes (commandBytes w ++ rest) = .ok (decode w, rest) :=
  congrArg (fun v => Except.ok (decode v, rest)) (wordOfBytes_fields w)

/-- A byte of a word as a number: divide by its place, drop what stands above it. -/
theorem extractLsb'_byte_toNat {n : Nat} (x : BitVec n) (start : Nat) :
    (x.extractLsb' start 8).toNat = x.toNat / 2 ^ start % 256 := by
  rw [BitVec.extractLsb'_toNat, Nat.shiftRight_eq_div_pow]

theorem commandBytes_toNat (w : Word) :
    (commandBytes w).map BitVec.toNat =
      [w.toNat / 2 ^ 24, w.toNat / 2 ^ 16 % 256, w.toNat / 2 ^ 8 % 256, w.toNat % 256] := by
  have htop : w.toNat / 2 ^ 24 % 256 = w.toNat / 2 ^ 24 := Nat.mod_eq_of_lt (by have := w.isLt; omega)
  simp only [commandBytes, List.map_cons, List.map_nil, extractLsb'_byte_toNat, htop, Nat.pow_zero, Nat.div_one]

theorem readBytes_toNat (d : Half) : (readBytes d).map BitVec.toNat = [d.toNat / 256, d.toNat % 256] := by
  have htop : d.toNat / 2 ^ 8 % 256 = d.toNat / 256 := Nat.mod_eq_of_lt (by have := d.isLt; omega)
  simp only [readBytes, List.map_cons, List.map_nil, extractLsb'_byte_toNat, htop, Nat.pow_zero, Nat.div_one]

theorem decodeBytes_of_length_lt {bs : List Byte} (h : bs.length < 4) :
    decodeBytes bs = .error .partialCommand := by
  match bs, h with
  | [], _ => rfl
  | [_], _ => rfl
  | [_, _], _ => rfl
  | [_, _, _], _ => rfl

end Sys2Proof

namespace Sys2Proof.Machine

/-! ## Commands neither stop the block nor look at the pins (R29, R180) -/

theorem exec_completes (i : Instr) (s : State) : ∃ t, exec i s = .next t := by
  cases i <;> exact ⟨_, rfl⟩

theorem arm_withPort (s : State) (p : Port) (id : Nat) : (s.withPort p).arm id = (s.arm id).withPort p := by
  unfold State.arm
  rw [State.withPort_cfg]
  split <;> rfl

/-- A command run with other things before the pins does the same to the registers. -/
theorem exec_withPort {i : Instr} {s t : State} (h : exec i s = .next t) (p : Port) :
    exec i (s.withPort p) = .next (t.withPort p) := by
  cases i with
  | rtarm id =>
    cases h
    rw [exec_rtarm, arm_withPort]
    rfl
  | _ =>
    cases h
    rfl

/-- Two clocks in a row with rst low in which the port takes a word, the first leaving `p` before the pins and the
second `q`, run the two commands one after the other. -/
theorem run_two_of_takeCommand {s : State} {a b : Word} {p q : Port} (hlow : s.port.rst = false)
    (hfirst : s.port.nextClock.takeCommand = (some a, p)) (hlow' : p.rst = false)
    (hsecond : p.nextClock.takeCommand = (some b, q)) :
    ∃ u : State, core.run 2 s = .next u ∧ u.port = q ∧
      runCommands [decode a, decode b] s = .next (u.withPort s.port) := by
  obtain ⟨v, hv⟩ := exec_completes (decode a) s
  obtain ⟨t, ht⟩ := exec_completes (decode b) v
  have hstep₁ : core.step s = .next (v.withPort p) := (step_of_some s p a hlow hfirst).trans (exec_withPort hv p)
  have hstep₂ : core.step (v.withPort p) = .next (t.withPort q) :=
    (step_of_some _ q b hlow' hsecond).trans (exec_withPort ht q)
  have hport : t.port = s.port := (exec_keeps_cfg_port ht).2.trans (exec_keeps_cfg_port hv).2
  refine ⟨t.withPort q, ?_, rfl, ?_⟩
  · simp only [Host.Core.run, hstep₁, hstep₂]
  · simp only [runCommands, hv, ht, ← hport]
    rfl

end Sys2Proof.Machine

namespace Sys2Proof

open Sys2Proof.Machine

/-! ## The statements -/

/-- Settles O41: the bytes are adjacent fields of the word, so appending them gives the word again, and a shorter byte
string is refused. -/
theorem byteLinkIsBigEndian : Obligations.ByteLinkIsBigEndian :=
  ⟨decodeBytes_commandBytes_append, commandBytes_toNat, readBytes_toNat, fun _ => decodeBytes_of_length_lt⟩

/-- Settles O25: the first step takes one of the two words and leaves the other alone before the pins, the second takes
that one. -/
theorem coincidentCommandsRunInSomeOrder : Obligations.CoincidentCommandsRunInSomeOrder := by
  intro s h t hrst hhost htimer
  have hlow : s.port.rst = false := rst_eq_false (by simp [hrst])
  have hlow' : s.port.nextClock.rst = false := rst_eq_false (by simp [Port.nextClock, hrst])
  obtain hfirst | hfirst := takeCommand_both s.port.nextClock h t [] [] hhost htimer
  · obtain ⟨u, hrun, hport, hcommands⟩ :=
      run_two_of_takeCommand hlow hfirst hlow' (takeCommand_timer _ t [] rfl htimer)
    exact ⟨u, hrun, congrArg Port.hostQueue hport, congrArg Port.timerQueue hport, .inl hcommands⟩
  · obtain ⟨u, hrun, hport, hcommands⟩ :=
      run_two_of_takeCommand hlow hfirst hlow' (takeCommand_host _ h [] hhost rfl)
    exact ⟨u, hrun, congrArg Port.hostQueue hport, congrArg Port.timerQueue hport, .inr hcommands⟩

end Sys2Proof
end

section
/-! SUPPORT. The statements of 30_encoding.md: the two round trips of decoder and encoder (R80, R81), the reserved bits
(R76), the opcode map (R78), the operand fields (R74) and the assembler (R80, R82). First the lemmas they use, in the
order of the definitions they speak of; then the statements. -/

namespace Sys2Proof

/-! ## The canonical word of a command (R81) -/

/-- Laws.CanonicalWord, of any command. -/
theorem canonicalWord (i : Instr) : Laws.CanonicalWord.Statement i := by
  cases i with
  | dcocvt note bend => exact Laws.CanonicalWord.dcocvt note bend
  | rtarm id => exact Laws.CanonicalWord.rtarm id
  | rttick mode => exact Laws.CanonicalWord.rttick mode
  | _ => exact ⟨opField_formatN _, formatN_reserved _⟩

@[simp] theorem opField_encode (i : Instr) : opField (encode i) = i.opcode := (canonicalWord i).1

/-- A 4-bit field holds an ID or a MODE in range. -/
theorem xField_formatI_ofNat (op : BitVec 4) {x : Nat} (hx : x ≤ 15) : xField (formatI op (BitVec.ofNat 4 x)) = x := by
  rw [xField_formatI, BitVec.toNat_ofNat]
  omega

theorem decode_encode {i : Instr} (hi : i.wellFormed = true) : decode (encode i) = i := by
  have hop := opField_encode i
  cases i with
  | nop => exact decode_op0 _ hop
  | dcocvt note bend =>
    simp only [Instr.wellFormed, noteInRange, bendInRange, Bool.and_eq_true, decide_eq_true_iff] at hi
    obtain ⟨hnote, hlo, hhi⟩ := hi
    have hn : noteField (encode (.dcocvt note bend)) = note := by
      rw [encode, noteField_formatD, BitVec.toNat_ofNat]
      omega
    have hb : bendField (encode (.dcocvt note bend)) = bend := by
      rw [encode, bendField_formatD]
      exact BitVec.toInt_ofInt_eq_self (by decide) hlo (by omega)
    rw [decode_op1 _ hop, hn, hb]
  | rngdraw => exact decode_op2 _ hop
  | rtarm id => exact (decode_op3 _ hop).trans (congrArg _ (xField_formatI_ofNat _ (of_decide_eq_true hi)))
  | rttick mode => exact (decode_op4 _ hop).trans (congrArg _ (xField_formatI_ofNat _ (of_decide_eq_true hi)))
  | sreset => exact decode_op5 _ hop
  | reserved6 => exact decode_op6 _ hop
  | reserved7 => exact decode_op7 _ hop
  | reserved8 => exact decode_op8 _ hop
  | reserved9 => exact decode_op9 _ hop
  | reservedA => exact decode_opA _ hop
  | reservedB => exact decode_opB _ hop
  | reservedC => exact decode_opC _ hop
  | reservedD => exact decode_opD _ hop
  | reservedE => exact decode_opE _ hop
  | reservedF => exact decode_opF _ hop

/-! ## A word's fields put back into its format (R71 to R73) -/

theorem formatN_fields (w : Word) : formatN (opField w) = w &&& ~~~0x0FFFFFFF#32 := by
  refine BitVec.eq_of_getLsbD_eq fun i hi => ?_
  simp only [opField, formatN, BitVec.getLsbD_extractLsb', BitVec.getLsbD_append, BitVec.getLsbD_and]
  interval_cases i <;> simp

theorem formatD_fields (w : Word) :
    formatD (opField w) (w.extractLsb' 14 7) (w.extractLsb' 0 14) = w &&& ~~~0x0FE00000#32 := by
  refine BitVec.eq_of_getLsbD_eq fun i hi => ?_
  simp only [opField, formatD, BitVec.getLsbD_extractLsb', BitVec.getLsbD_append, BitVec.getLsbD_and]
  interval_cases i <;> simp

theorem formatI_fields (w : Word) :
    formatI (opField w) (w.extractLsb' 0 4) = w &&& ~~~0x0FFFFFF0#32 := by
  refine BitVec.eq_of_getLsbD_eq fun i hi => ?_
  simp only [opField, formatI, BitVec.getLsbD_extractLsb', BitVec.getLsbD_append, BitVec.getLsbD_and]
  interval_cases i <;> simp

/-! ## What a word decodes to -/

theorem encode_decode (w : Word) : encode (decode w) = w &&& ~~~(decode w).reservedMask := by
  apply decode_elim (P := fun w i => encode i = w &&& ~~~i.reservedMask)
  case h1 =>
    intro w hop
    rw [Instr.reservedMask, ← formatD_fields, hop, encode, noteField, bendField, BitVec.ofNat_toNat, BitVec.setWidth_eq,
      BitVec.ofInt_toInt, Instr.opcode]
  case h3 | h4 =>
    intro w hop
    rw [Instr.reservedMask, ← formatI_fields, hop, encode, xField, BitVec.ofNat_toNat, BitVec.setWidth_eq, Instr.opcode]
  all_goals exact fun w hop => (congrArg formatN hop.symm).trans (formatN_fields w)

theorem decode_wellFormed (w : Word) : (decode w).wellFormed = true := by
  apply decode_elim (P := fun _ i => i.wellFormed = true)
  case h1 =>
    intro w _
    simp [Instr.wellFormed, noteInRange, bendInRange, noteField_le, bendField_range]
  case h3 | h4 => exact fun w _ => decide_eq_true (xField_le w)
  all_goals exact fun _ _ => rfl

/-! ## The reserved bits (R76) -/

/-- The lowest reserved bit of the format that an opcode has (R71 to R73). -/
def lowestReserved (op : BitVec 4) : Nat := if op = 0x1#4 then 21 else if op = 0x3#4 ∨ op = 0x4#4 then 4 else 0

theorem lowestReserved_le (op : BitVec 4) : lowestReserved op ≤ 21 := by
  unfold lowestReserved
  split_ifs <;> omega

/-- The reserved bits reach from the format's lowest one up to cmd[27]. -/
theorem reservedMask_decode (w : Word) :
    (decode w).reservedMask = BitVec.ofNat 32 (2 ^ 28 - 2 ^ lowestReserved (opField w)) := by
  apply decode_elim (P := fun w i => i.reservedMask = BitVec.ofNat 32 (2 ^ 28 - 2 ^ lowestReserved (opField w))) <;>
    exact fun _ hop => hop ▸ rfl

/-- The bits of 2^28 - 2^lo: those from `lo` to 27. -/
theorem ofNat_two_pow_sub_getLsbD_iff {lo : Nat} (hlo : lo ≤ 21) (k : Nat) :
    (BitVec.ofNat 32 (2 ^ 28 - 2 ^ lo)).getLsbD k = true ↔ k ≤ 27 ∧ lo ≤ k := by
  have hpos : 0 < 2 ^ lo := Nat.two_pow_pos lo
  have hlt : 2 ^ lo - 1 < 2 ^ 28 := by
    have := Nat.pow_le_pow_right Nat.two_pos hlo
    omega
  have hbits := Nat.testBit_two_pow_sub_succ hlt k
  rw [Nat.sub_add_cancel hpos, Nat.testBit_two_pow_sub_one] at hbits
  rw [BitVec.getLsbD_ofNat, hbits]
  simp only [Bool.and_eq_true, Bool.not_eq_true', decide_eq_true_iff, decide_eq_false_iff_not]
  omega

theorem reservedMask_getLsbD_iff (w : Word) (k : Nat) :
    (decode w).reservedMask.getLsbD k = true ↔ k ≤ 27 ∧ lowestReserved (opField w) ≤ k := by
  rw [reservedMask_decode, ofNat_two_pow_sub_getLsbD_iff (lowestReserved_le _)]

theorem opField_andNot_reservedMask (w : Word) (i : Instr) : opField (w &&& ~~~i.reservedMask) = opField w := by
  have hkept : opField (~~~i.reservedMask) = BitVec.allOnes 4 := by cases i <;> (simp only [Instr.reservedMask]; decide)
  rw [opField, BitVec.extractLsb'_and, ← opField, ← opField, hkept, BitVec.and_allOnes]

/-- Words that differ in reserved bits alone are the same command: both have the same canonical word. -/
theorem decode_eq_of_andNot_reservedMask {v w : Word}
    (h : v &&& ~~~(decode w).reservedMask = w &&& ~~~(decode w).reservedMask) : decode v = decode w := by
  have hop : opField v = opField w := by
    rw [← opField_andNot_reservedMask v (decode w), h, opField_andNot_reservedMask]
  have hmask : (decode v).reservedMask = (decode w).reservedMask := by
    rw [reservedMask_decode, reservedMask_decode, hop]
  have hcanon : encode (decode v) = encode (decode w) := by rw [encode_decode, encode_decode, hmask, h]
  rw [← decode_encode (decode_wellFormed v), hcanon, decode_encode (decode_wellFormed w)]

theorem or_and_andNot (w r m : Word) : (w ||| (r &&& m)) &&& ~~~m = w &&& ~~~m := by
  ext i hi
  simp only [BitVec.getElem_and, BitVec.getElem_or, BitVec.getElem_not]
  cases m[i] <;> simp

theorem andNot_and_andNot (w r m : Word) : (w &&& ~~~(r &&& m)) &&& ~~~m = w &&& ~~~m := by
  ext i hi
  simp only [BitVec.getElem_and, BitVec.getElem_not]
  cases m[i] <;> simp

/-! ## The opcode map (R75, R78) -/

/-- The mask of every row keeps the opcode alone. -/
theorem and_opcodeMask (w : Word) : w &&& opcodeMask = formatN (opField w) := (formatN_fields w).symm

theorem matchingRows_eq (w : Word) :
    (opcodeRows.filter (fun r => w &&& opcodeMask == r.2)).map Prod.fst = [(decode w).mnemonic] := by
  rw [and_opcodeMask]
  apply decode_elim
    (P := fun w i => (opcodeRows.filter (fun r => formatN (opField w) == r.2)).map Prod.fst = [i.mnemonic]) <;>
    exact fun _ hop => hop ▸ rfl

theorem mnemonic_decode_congr {v w : Word} (h : opField v = opField w) : (decode v).mnemonic = (decode w).mnemonic := by
  have hrows := matchingRows_eq v
  rw [and_opcodeMask, h, ← and_opcodeMask, matchingRows_eq] at hrows
  exact (List.singleton_inj.mp hrows).symm

/-! ## The operand fields as numbers (R74) -/

theorem noteField_eq (w : Word) : noteField w = w.toNat / 2 ^ 14 % 2 ^ 7 := by
  rw [noteField, BitVec.extractLsb'_toNat, Nat.shiftRight_eq_div_pow]

theorem xField_eq (w : Word) : xField w = w.toNat % 2 ^ 4 := by
  rw [xField, BitVec.extractLsb'_toNat, Nat.shiftRight_zero]

theorem bendField_eq (w : Word) :
    bendField w = (w.toNat % 2 ^ 14 : Nat) - (if w.getLsbD 13 then 2 ^ 14 else 0 : Int) := by
  have hsign : (w.extractLsb' 0 14).msb = w.getLsbD 13 := by simp [BitVec.msb_eq_getLsbD_last]
  rw [bendField, BitVec.toInt_eq_msb_cond, hsign, BitVec.extractLsb'_toNat, Nat.shiftRight_zero]
  split <;> simp

/-- Inverting the sign bit of a 7-bit number takes 64 from its unsigned value. -/
theorem toInt_xor_sign (x : BitVec 7) : (x ^^^ 0x40#7).toInt = x.toNat - 64 := by
  decide +revert

/-- r ^ 0x2000 inverts the sign bit, which stands in the most significant byte. -/
theorem bendOfMidi_eq_append (msb lsb : BitVec 7) : bendOfMidi msb lsb = (msb ^^^ 0x40#7) ++ lsb := by
  have hsign : 0x2000#14 = 0x40#7 ++ 0#7 := rfl
  rw [bendOfMidi, hsign, BitVec.xor_append, BitVec.xor_zero]

theorem bendOfMidi_toInt (msb lsb : BitVec 7) :
    (bendOfMidi msb lsb).toInt = msb.toNat * 128 + lsb.toNat - 8192 := by
  rw [bendOfMidi_eq_append, BitVec.toInt_append, toInt_xor_sign, if_neg (by decide)]
  ring

/-! ## The words of R80 -/

theorem formatN_eq_shiftLeft (op : BitVec 4) : formatN op = op.setWidth 32 <<< 28 := by
  have h := BitVec.setWidth_append_eq_shiftLeft_setWidth_or (b := op) (b' := 0#28) (w'' := 32)
  simpa [formatN] using h

theorem formatI_eq_or (op x : BitVec 4) : formatI op x = formatN op ||| x.setWidth 32 := by
  have h := BitVec.setWidth_append_append_eq_shiftLeft_setWidth_or (b := op) (b' := 0#24) (b'' := x) (w''' := 32)
  simpa [formatI, formatN_eq_shiftLeft] using h

theorem formatD_eq_or (op : BitVec 4) (note : BitVec 7) (bend : BitVec 14) :
    formatD op note bend = formatN op ||| note.setWidth 32 <<< 14 ||| bend.setWidth 32 := by
  have h := BitVec.setWidth_append_append_append_eq_shiftLeft_setWidth_or (b := op) (b' := 0#7) (b'' := note)
    (b''' := bend) (w'''' := 32)
  simpa [formatD, formatN_eq_shiftLeft] using h

/-- The low 14 bits of a bend are the same in a field of 14 bits and in one of 32. -/
theorem setWidth_ofInt_bend (bend : Int) :
    (BitVec.ofInt 14 bend).setWidth 32 = BitVec.ofInt 32 bend &&& 0x3FFF#32 := by
  apply BitVec.eq_of_toNat_eq
  rw [BitVec.toNat_setWidth, BitVec.toNat_ofInt, BitVec.toNat_and, BitVec.toNat_ofInt]
  have hmask : (0x3FFF#32).toNat = 2 ^ 14 - 1 := rfl
  rw [hmask, Nat.and_two_pow_sub_one_eq_mod]
  omega

theorem encode_rtarm_eq {id : Nat} (h : id ≤ 15) : encode (.rtarm id) = 0x30000000#32 ||| BitVec.ofNat 32 id := by
  rw [encode, Instr.opcode, formatI_eq_or, BitVec.setWidth_ofNat_of_le_of_lt (by decide) (by omega)]
  rfl

theorem encode_rttick_eq {mode : Nat} (h : mode ≤ 15) :
    encode (.rttick mode) = 0x40000000#32 ||| BitVec.ofNat 32 mode := by
  rw [encode, Instr.opcode, formatI_eq_or, BitVec.setWidth_ofNat_of_le_of_lt (by decide) (by omega)]
  rfl

theorem encode_dcocvt_eq {note : Nat} (h : note ≤ 127) (bend : Int) :
    encode (.dcocvt note bend) =
      0x10000000#32 ||| BitVec.ofNat 32 note <<< 14 ||| (BitVec.ofInt 32 bend &&& 0x3FFF#32) := by
  rw [encode, Instr.opcode, formatD_eq_or, BitVec.setWidth_ofNat_of_le_of_lt (by decide) (by omega), setWidth_ofInt_bend]
  rfl

end Sys2Proof

namespace Sys2Proof.Machine

/-! ## What the assembler accepts (R80, R82) -/

theorem natOperand_of_mem {max : Nat} {v : Int} (hlo : 0 ≤ v) (hhi : v ≤ max) : natOperand max v = some v.toNat :=
  (natOperand_eq_some_iff _ _ _).mpr ⟨hlo, hhi, rfl⟩

theorem natOperand_isSome_iff (max : Nat) (v : Int) : (natOperand max v).isSome = true ↔ 0 ≤ v ∧ v ≤ max := by
  rw [Option.isSome_iff_ne_none, Ne, natOperand_eq_none_iff]
  omega

theorem assembleDcocvt_isSome_iff (note bend : Int) :
    (assembleDcocvt note bend).isSome = true ↔ 0 ≤ note ∧ note ≤ 127 ∧ -8192 ≤ bend ∧ bend ≤ 8191 := by
  rw [Option.isSome_iff_ne_none, Ne, assembleDcocvt_eq_none_iff]
  omega

theorem assembleDcocvt_of_mem {note bend : Int} (hlo : 0 ≤ note) (hhi : note ≤ 127) (hblo : -8192 ≤ bend)
    (hbhi : bend ≤ 8191) : assembleDcocvt note bend = some (.dcocvt note.toNat bend) :=
  (assembleDcocvt_eq_some_iff _ _ _).mpr ⟨hlo, hhi, hblo, hbhi, rfl⟩

theorem le_of_natOperand {max n : Nat} {v : Int} (h : natOperand max v = some n) : n ≤ max := by
  obtain ⟨_, hhi, rfl⟩ := (natOperand_eq_some_iff _ _ _).mp h
  omega

theorem assembleDcocvt_wellFormed {note bend : Int} {i : Instr} (h : assembleDcocvt note bend = some i) :
    i.wellFormed = true := by
  obtain ⟨hlo, hhi, hblo, hbhi, rfl⟩ := (assembleDcocvt_eq_some_iff _ _ _).mp h
  simp [Instr.wellFormed, noteInRange, bendInRange, hhi, hblo, hbhi]

/-- R80: every command the assembler makes has its operands in range. -/
theorem expand_wellFormed {nPoly : Nat} {a : Asm} {i : Instr} (h : expand nPoly a = some i) : i.wellFormed = true := by
  cases a with
  | dcocvt note bend => exact assembleDcocvt_wellFormed h
  | dcocvtNote note => exact assembleDcocvt_wellFormed h
  | rtarm id =>
    obtain ⟨n, hn, rfl⟩ := Option.map_eq_some_iff.mp h
    exact decide_eq_true (le_of_natOperand hn)
  | rttick mode =>
    obtain ⟨n, hn, rfl⟩ := Option.map_eq_some_iff.mp h
    exact decide_eq_true (le_of_natOperand hn)
  | rtarmMono v =>
    obtain ⟨n, hn, rfl⟩ := Option.map_eq_some_iff.mp h
    exact decide_eq_true ((le_of_natOperand hn).trans (by decide))
  | rtarmPoly s =>
    obtain ⟨-, hmap⟩ := Option.ite_none_right_eq_some.mp h
    obtain ⟨n, hn, rfl⟩ := Option.map_eq_some_iff.mp hmap
    have := le_of_natOperand hn
    exact decide_eq_true (by omega)
  | _ => cases h; rfl

/-- R80, R81: a word that the assembler emits is canonical. -/
theorem assemble_eq_some {nPoly : Nat} {a : Asm} {w : Word} (h : assemble nPoly a = some w) :
    ∃ i, expand nPoly a = some i ∧ i.wellFormed = true ∧ w = encode i ∧ decode w = i := by
  obtain ⟨i, hi, rfl⟩ := Option.map_eq_some_iff.mp h
  exact ⟨i, hi, expand_wellFormed hi, rfl, decode_encode (expand_wellFormed hi)⟩

theorem assemble_of_expand {nPoly : Nat} {a : Asm} {i : Instr} (h : expand nPoly a = some i) :
    assemble nPoly a = some (encode i) := by
  rw [assemble, h, Option.map_some]

theorem expand_rtarm {x : Int} (hlo : 0 ≤ x) (hhi : x ≤ 15) (nPoly : Nat) :
    expand nPoly (.rtarm x) = some (.rtarm x.toNat) := congrArg (Option.map _) (natOperand_of_mem hlo hhi)

theorem expand_rttick {x : Int} (hlo : 0 ≤ x) (hhi : x ≤ 15) (nPoly : Nat) :
    expand nPoly (.rttick x) = some (.rttick x.toNat) := congrArg (Option.map _) (natOperand_of_mem hlo hhi)

theorem expand_rtarmMono {x : Int} (hlo : 0 ≤ x) (hhi : x ≤ 1) (nPoly : Nat) :
    expand nPoly (.rtarmMono x) = some (.rtarm x.toNat) := congrArg (Option.map _) (natOperand_of_mem hlo hhi)

theorem expand_rtarmPoly {nPoly s : Nat} (hpoly : nPoly ≤ 14) (hs : s < nPoly) :
    expand nPoly (.rtarmPoly s) = some (.rtarm (2 + s)) := by
  rw [expand, if_pos (by omega), natOperand_of_mem (by omega) (by omega)]
  rfl

theorem expand_rtarmPoly_eq_none {nPoly : Nat} {s : Int} (hs : s < 0 ∨ nPoly ≤ s) :
    expand nPoly (.rtarmPoly s) = none := by
  rw [expand]
  split
  · rw [Option.map_eq_none_iff, natOperand_eq_none_iff]
    omega
  · rfl

end Sys2Proof.Machine

namespace Sys2Proof

open Sys2Proof.Machine

/-! ## The statements -/

/-- Settles O35: the opcode of a canonical word is its command's, and a field gives back an operand in range. -/
theorem decodeOfEncode : Obligations.DecodeOfEncode := fun _ => decode_encode

/-- Settles O36: a word's own fields, put back into its format, are the word without its reserved bits. -/
theorem encodeOfDecodeClearsReserved : Obligations.EncodeOfDecodeClearsReserved :=
  fun w => ⟨encode_decode w, decode_wellFormed w⟩

/-- Settles O37: a word's command is that of its canonical word, which has no reserved bit. -/
theorem reservedBitsAreIgnored : Obligations.ReservedBitsAreIgnored :=
  ⟨fun w r => ⟨decode_eq_of_andNot_reservedMask (or_and_andNot w r _),
      decode_eq_of_andNot_reservedMask (andNot_and_andNot w r _)⟩,
    reservedMask_getLsbD_iff, fun i => (canonicalWord i).2⟩

/-- Settles O38: the mask keeps the opcode alone, and the rows are those of the sixteen opcodes. -/
theorem opcodeMapIsTotalAndUnambiguous : Obligations.OpcodeMapIsTotalAndUnambiguous :=
  ⟨matchingRows_eq, fun _ _ => mnemonic_decode_congr⟩

/-- Settles O39, field by field. -/
theorem operandFieldValues : Obligations.OperandFieldValues :=
  ⟨fun w => ⟨noteField_eq w, xField_eq w, bendField_eq w⟩, bendOfMidi_toInt⟩

/-- Settles O42: the operand checks are the ranges of R80, and the words are the formats' fields put together. -/
theorem assemblerEmitsCanonicalWords : Obligations.AssemblerEmitsCanonicalWords := by
  refine ⟨fun n a w _ => assemble_eq_some, fun n => assembleDcocvt_isSome_iff, fun n x => ⟨?_, ?_, ?_⟩,
    fun n => ⟨rfl, rfl, rfl, rfl, rfl, rfl⟩, ?_, ?_⟩
  · rw [expand, Option.isSome_map]
    exact natOperand_isSome_iff 15 x
  · rw [expand, Option.isSome_map]
    exact natOperand_isSome_iff 15 x
  · rw [expand, Option.isSome_map]
    exact natOperand_isSome_iff 1 x
  · intro n x hlo hhi
    have harm := expand_rtarm hlo hhi n
    have htick := expand_rttick hlo hhi n
    have hx : x.toNat ≤ 15 := by omega
    exact ⟨harm, encode_rtarm_eq hx ▸ assemble_of_expand harm, htick, encode_rttick_eq hx ▸ assemble_of_expand htick⟩
  · intro n note bend hlo hhi hblo hbhi
    have hcvt : expand n (.dcocvt note bend) = _ := assembleDcocvt_of_mem hlo hhi hblo hbhi
    have hnote : note.toNat ≤ 127 := by omega
    exact ⟨hcvt, encode_dcocvt_eq hnote bend ▸ assemble_of_expand hcvt⟩

/-- Settles O43, line by line. -/
theorem pseudoInstructionsExpand : Obligations.PseudoInstructionsExpand := by
  intro n hn
  refine ⟨?_, ?_, ?_, fun s => expand_rtarmPoly_eq_none, ?_, rfl, rfl⟩
  · intro v hv
    have hmono := expand_rtarmMono (x := v) (by omega) (by omega) n
    exact ⟨hmono, hmono.trans (expand_rtarm (by omega) (by omega) n).symm⟩
  · intro v hv
    rw [expand, Option.map_eq_none_iff, natOperand_eq_none_iff]
    exact hv
  · intro s hs
    have hpoly := expand_rtarmPoly hn hs
    have harm : expand n (.rtarm (2 + s)) = some (.rtarm (2 + s)) := expand_rtarm (x := 2 + s) (by omega) (by omega) n
    exact ⟨hpoly, hpoly.trans harm.symm⟩
  · intro note
    refine ⟨rfl, fun hlo hhi => assembleDcocvt_of_mem hlo hhi (by decide) (by decide), fun hout => ?_⟩
    rw [expand, assembleDcocvt_eq_none_iff]
    omega

/-- Settles O40: the words are literals, so the decoder is run on them. -/
theorem writtenOutWordsDecode : Obligations.WrittenOutWordsDecode := by
  unfold Obligations.WrittenOutWordsDecode
  decide

end Sys2Proof
end

section
/-! SUPPORT. The statements of 40_retrigger.md: RTARM (R100 to R102), RTTICK (R105 to R108), how long a countdown stays
armed (R109) and what changes one (R110); and the same interval in tick periods (R207). First the lemmas they use, in
the order of the definitions they speak of; then the statements. -/

namespace Sys2Proof

/-! ## The canonical words of the unit (R80, R81), the operand given as a field -/

theorem encode_rtarm_toNat (x : BitVec 4) : encode (.rtarm x.toNat) = 0x30000000#32 ||| x.setWidth 32 := by
  rw [encode_rtarm_eq (Nat.le_of_lt_succ x.isLt), BitVec.ofNat_toNat]

theorem encode_rttick_toNat (x : BitVec 4) : encode (.rttick x.toNat) = 0x40000000#32 ||| x.setWidth 32 := by
  rw [encode_rttick_eq (Nat.le_of_lt_succ x.isLt), BitVec.ofNat_toNat]

end Sys2Proof

namespace Sys2Proof.Machine

/-! ## One countdown over one command (R100 to R106, R171) -/

/-- R106: a tick takes exactly one from a countdown that is not zero. -/
theorem tickCount_toNat_add_one {c : Count} (hc : c ≠ 0#8) : (tickCount c).toNat + 1 = c.toNat := by
  rw [tickCount_toNat, Nat.sub_add_cancel ((count_ne_zero_iff c).mp hc)]

/-- R100 to R102, every countdown at once. -/
theorem arm_getElem? {s : State} (hsize : s.cnt.length = s.cfg.ncnt) (id k : Nat) :
    (s.arm id).cnt[k]? = if k = id ∧ k < s.cfg.ncnt then some s.cfg.retrigTicks else s.cnt[k]? := by
  split
  next h =>
    obtain ⟨rfl, hk⟩ := h
    exact arm_getElem?_self s k hk (hsize ▸ hk)
  next h =>
    by_cases hid : k = id
    · subst hid
      rw [arm_outOfRange s k (by omega)]
    · exact arm_getElem?_ne s id k hid

/-- What a command can do to countdown k: load it, clear it, tick it, or leave it alone. -/
theorem exec_countdown_cases {i : Instr} {s t : State} {k : Nat} {c : Count} (hk : k < s.cfg.ncnt)
    (hc : s.cnt[k]? = some c) (h : exec i s = .next t) :
    (i = .rtarm k ∧ t.cnt[k]? = some s.cfg.retrigTicks) ∨ (i = .sreset ∧ t.cnt[k]? = some 0#8) ∨
      ((∃ mode, i = .rttick mode) ∧ t.cnt[k]? = some (tickCount c)) ∨
      ((∀ mode, i ≠ .rttick mode) ∧ t.cnt[k]? = some c) := by
  have hl : k < s.cnt.length := (List.getElem?_eq_some_iff.mp hc).1
  cases i with
  | rtarm id =>
    cases h
    by_cases hid : k = id
    · subst hid
      exact .inl ⟨rfl, arm_getElem?_self s k hk hl⟩
    · exact .inr (.inr (.inr ⟨nofun, (arm_getElem?_ne s id k hid).trans hc⟩))
  | sreset =>
    cases h
    exact .inr (.inl ⟨rfl, List.getElem?_replicate_of_lt hk⟩)
  | rttick mode =>
    cases h
    exact .inr (.inr (.inl ⟨⟨mode, rfl⟩, by simp [hc]⟩))
  | _ =>
    cases h
    exact .inr (.inr (.inr ⟨nofun, hc⟩))

/-! ## One countdown over a command list (R109) -/

theorem tickTotal_rttick_cons (mode : Nat) (is : List Instr) :
    tickTotal (.rttick mode :: is) = tickTotal is + 1 :=
  List.countP_cons_of_pos rfl

theorem tickTotal_cons_of_ne {i : Instr} (hi : ∀ mode, i ≠ .rttick mode) (is : List Instr) :
    tickTotal (i :: is) = tickTotal is := by
  cases i with
  | rttick mode => exact absurd rfl (hi mode)
  | _ => rfl

theorem tickTotal_replicate_rttick (m mode : Nat) : tickTotal (List.replicate m (.rttick mode)) = m := by
  induction m with
  | zero => rfl
  | succ m ih => rw [List.replicate_succ, tickTotal_rttick_cons, ih]

theorem runCommands_cons {i : Instr} {s t : State} (h : exec i s = .next t) (is : List Instr) :
    runCommands (i :: is) s = runCommands is t := by
  rw [runCommands, h]

/-- A countdown that no RTARM and no SRESET touches goes down by one for each tick, until it is zero. -/
theorem runCommands_countdown {k : Nat} {is : List Instr} (harm : Instr.rtarm k ∉ is) (hsreset : Instr.sreset ∉ is)
    {s : State} {c : Count} (hk : k < s.cfg.ncnt) (hc : s.cnt[k]? = some c) :
    ∃ (t : State) (c' : Count), runCommands is s = .next t ∧ t.cnt[k]? = some c' ∧
      c'.toNat = c.toNat - tickTotal is := by
  induction is generalizing s c with
  | nil => exact ⟨s, c, rfl, hc, rfl⟩
  | cons i is ih =>
    obtain ⟨hiArm, hisArm⟩ := List.ne_and_not_mem_of_not_mem_cons harm
    obtain ⟨hiSreset, hisSreset⟩ := List.ne_and_not_mem_of_not_mem_cons hsreset
    obtain ⟨u, hu⟩ := exec_completes i s
    have hku : k < u.cfg.ncnt := (exec_keeps_cfg_port hu).1 ▸ hk
    rw [runCommands_cons hu]
    obtain ⟨rfl, -⟩ | ⟨rfl, -⟩ | ⟨⟨mode, rfl⟩, hcu⟩ | ⟨hi, hcu⟩ := exec_countdown_cases hk hc hu
    · exact absurd rfl hiArm
    · exact absurd rfl hiSreset
    · obtain ⟨t, c', hrun, hct, hval⟩ := ih hisArm hisSreset hku hcu
      refine ⟨t, c', hrun, hct, ?_⟩
      rw [hval, tickCount_toNat, tickTotal_rttick_cons, Nat.sub_sub, Nat.add_comm 1]
    · obtain ⟨t, c', hrun, hct, hval⟩ := ih hisArm hisSreset hku hcu
      exact ⟨t, c', hrun, hct, by rw [hval, tickTotal_cons_of_ne hi]⟩

end Sys2Proof.Machine

namespace Sys2Proof

open Sys2Proof.Machine

/-! ## The statements -/

/-- Settles O6: RTARM is the arming of one countdown, read at every index. -/
theorem rtarmLoadsRetrigTicks : Obligations.RtarmLoadsRetrigTicks := by
  intro w s hop hsize
  refine ⟨decode_op3 w hop, encode_rtarm_toNat _, _, exec_rtarm s _, arm_getElem? hsize _, fun hout => ?_, ?_⟩
  · rw [State.withDrumStep_cnt, arm_outOfRange s _ hout]
  · simp

/-- Settles O7: every countdown is ticked, and STATUS reports a nonzero countdown or a drum mode. -/
theorem rttickDecrementsAndReports : Obligations.RttickDecrementsAndReports := by
  intro w s hop
  have hdrum := isDrumMode_xField_iff w
  rw [xField] at hdrum
  refine ⟨decode_op4 w hop, encode_rttick_toNat _, _, exec_rttick s _, List.length_map _, fun k c hc => ?_, ?_, ?_, ?_⟩
  · refine ⟨tickCount c, by simp [hc], ?_, tickCount_toNat_add_one⟩
    rintro rfl
    rfl
  · rw [State.dtick_withDrumStep, dtick_tickStatus, hdrum]
  · rw [State.chg_withDrumStep, chg_tickStatus, Bool.or_eq_true, anyArmed_iff, hdrum]
  · simp

/-- Settles O8: the arm loads RETRIG_TICKS, and each tick of the list takes one from it until it is zero. -/
theorem armedForExactlyRetrigTicks : Obligations.ArmedForExactlyRetrigTicks := by
  intro s id is hsize hid harm hsreset
  have hload : (s.arm id).cnt[id]? = some s.cfg.retrigTicks := arm_getElem?_self s id hid (hsize ▸ hid)
  have hid' : id < (s.arm id).cfg.ncnt := (State.arm_cfg s id).symm ▸ hid
  rw [runCommands_cons (exec_rtarm s id)]
  simpa using runCommands_countdown (s := (s.arm id).withDrumStep false) harm hsreset hid' hload

/-- Settles O9, by the three kinds of step and, for a command, by what it can do to one countdown. -/
theorem countdownChangesOnlyByRule : Obligations.CountdownChangesOnlyByRule := by
  intro s t k c c' hsize h hc hc' hne
  have hk : k < s.cfg.ncnt := hsize ▸ (List.getElem?_eq_some_iff.mp hc).1
  obtain ⟨hrst, rfl⟩ | ⟨-, p, -, rfl⟩ | ⟨hlow, w, p, hsome, hexec⟩ := step_cases h
  · exact .inl ⟨hrst, List.eq_of_mem_replicate (List.mem_of_getElem? hc')⟩
  · exact absurd (Option.some.inj (hc'.symm.trans hc)) hne
  · have hval {v : Count} (hv : t.cnt[k]? = some v) : c' = v := Option.some.inj (hc'.symm.trans hv)
    refine .inr ⟨hlow, w, p, hsome, ?_⟩
    obtain ⟨harm, hv⟩ | ⟨hsreset, hv⟩ | ⟨htick, hv⟩ | ⟨-, hv⟩ := exec_countdown_cases (s := s.withPort p) hk hc hexec
    · exact .inl ⟨harm, hval hv⟩
    · exact .inr (.inl ⟨hsreset, hval hv⟩)
    · obtain rfl := hval hv
      have hpos : c ≠ 0#8 := by
        rintro rfl
        exact hne rfl
      exact .inr (.inr ⟨htick, tickCount_toNat_add_one hpos⟩)
    · exact absurd (hval hv) hne

/-- Settles O46: the run is that of ArmedForExactlyRetrigTicks with nothing but ticks after the arm, and the D-th tick
comes D - 1 periods after the first. -/
theorem armedIntervalInTickPeriods : Obligations.ArmedIntervalInTickPeriods := by
  intro s id first hsize hid hpos hfirst d
  refine ⟨fun m => ?_, Nat.lt_add_of_pos_left hpos, ?_⟩
  · obtain ⟨t, c, hrun, hc, hval⟩ :=
      armedForExactlyRetrigTicks s id (List.replicate m (.rttick 0)) hsize hid (by simp) (by simp)
    rw [tickTotal_replicate_rttick, Nat.max_zero] at hval
    refine ⟨t, hrun, ?_⟩
    calc t.armed id = true
      _ ↔ c ≠ 0#8 := by simp [armed_iff, hc]
      _ ↔ 1 ≤ d - m := by rw [count_ne_zero_iff, hval]
      _ ↔ m < d := Nat.sub_pos_iff_lt
  · have hd : 1 ≤ d := (count_ne_zero_iff _).mp s.cfg.wellFormed.2.1
    calc tickTime s.cfg first d
      _ ≤ s.cfg.tickPeriod + (d - 1) * s.cfg.tickPeriod := Nat.add_le_add_right hfirst _
      _ = (1 + (d - 1)) * s.cfg.tickPeriod := by rw [Nat.add_mul, Nat.one_mul]
      _ = d * s.cfg.tickPeriod := by rw [Nat.add_sub_cancel' hd]

end Sys2Proof
end

section
/-! SUPPORT. The statements of 41_dco.md: the pitch and its range (R121, R127), the octave reduction (R122), the
interpolation (R123 to R125) and the count as NOTE and BEND move (R128 to R130). First the lemmas they use, in the order
of the definitions they speak of; then the statements. -/

namespace Sys2Proof

/-! ## The canonical word of DCOCVT (R81), the operands given as fields -/

theorem encode_dcocvt_toNat_toInt (note : BitVec 7) (bend : BitVec 14) :
    encode (.dcocvt note.toNat bend.toInt) =
      0x10000000#32 ||| note.setWidth 32 <<< 14 ||| bend.setWidth 32 := by
  rw [encode, Instr.opcode, formatD_eq_or, BitVec.ofNat_toNat, BitVec.setWidth_eq, BitVec.ofInt_toInt]
  rfl

end Sys2Proof

namespace Sys2Proof.Machine

/-! ## The pitch (R121) -/

/-- An arithmetic right shift stays in a range around 0. -/
theorem sar_mem {a lo hi : Int} (hlo : lo ≤ 0) (hhi : 0 ≤ hi) (ha : lo ≤ a ∧ a ≤ hi) (n : Nat) :
    lo ≤ sar a n ∧ sar a n ≤ hi := by
  have hpow : (1 : Int) ≤ 2 ^ n := one_le_pow₀ (by decide)
  constructor
  · exact Int.le_ediv_of_mul_le (by omega) ((mul_le_of_one_le_right hlo hpow).trans ha.1)
  · exact Int.ediv_le_of_le_mul (by omega) (ha.2.trans (le_mul_of_one_le_right hhi hpow))

theorem pitch_eq (c : Config) (note : Nat) (bend : Int) :
    pitch c note bend = 128 * ((note : Int) - c.refNote) + sar bend c.bendShift := by
  unfold pitch semitone
  ring

/-- R128: at zero bend the pitch is a whole number of semitones. -/
theorem pitch_zero_bend (c : Config) (note : Nat) : pitch c note 0 = 128 * ((note : Int) - c.refNote) := by
  rw [pitch_eq, sar, Int.zero_ediv, Int.add_zero]

theorem pitch_add_twelve (c : Config) (note : Nat) (bend : Int) :
    pitch c (note + 12) bend = pitch c note bend + 1536 := by
  rw [pitch_eq, pitch_eq]
  omega

/-- R127. -/
theorem pitch_mem (c : Config) {note : Nat} {bend : Int} (h : (Instr.dcocvt note bend).wellFormed = true) :
    -24448 ≤ pitch c note bend ∧ pitch c note bend ≤ 24447 := by
  simp only [Instr.wellFormed, noteInRange, bendInRange, Bool.and_eq_true, decide_eq_true_iff] at h
  obtain ⟨hnote, hbend⟩ := h
  have hshift := sar_mem (by decide) (by decide) hbend c.bendShift
  have href := c.refNote_le
  rw [pitch_eq]
  omega

/-! ## The octave reduction (R122) -/

/-- At or above the reference, q and k are the remainder and the quotient that the pitch is made of. -/
theorem octaves_of_eq {p : Int} {q k : Nat} (hq : q < 1536) (hp : p = 1536 * (k : Int) + q) :
    subOctave p = q ∧ octaveCount p = k := by
  have hsub := subOctave_cast p
  have hcount := octaveCount_of_nonneg p (by omega)
  omega

/-- R122: q and k in the words of the two loops, which count what they take off and not what they add. -/
theorem octaves_cases (p : Int) :
    (0 ≤ p ∧ p = 1536 * (octaveCount p : Int) + subOctave p) ∨
      (p < 0 ∧ octaveCount p = 0 ∧ ∃ n : Nat, p + 1536 * (n : Int) = subOctave p) := by
  rw [subOctave_cast]
  obtain hneg | hpos := lt_or_ge p 0
  · exact .inr ⟨hneg, octaveCount_of_neg p hneg, (-(p / 1536)).toNat, by omega⟩
  · have hcount := octaveCount_of_nonneg p hpos
    exact .inl ⟨hpos, by omega⟩

theorem subOctave_add_mul (p n : Int) : subOctave (p + 1536 * n) = subOctave p := by
  have h := subOctave_cast (p + 1536 * n)
  rw [Int.add_mul_emod_self_left, ← subOctave_cast] at h
  exact Int.ofNat_inj.mp h

theorem octaveCount_eq_zero {p : Int} (h : p < 1536) : octaveCount p = 0 := by
  have := octaves_cases p
  omega

/-- The uncounted loop, run often enough, leaves a pitch at or above the reference alone and takes one below it to its
sub-octave position. -/
theorem raiseOctaves_eq (up : Nat) {p : Int} (hup : -(1536 * (up : Int)) ≤ p) :
    raiseOctaves up p = if p < 0 then (subOctave p : Int) else p := by
  induction up generalizing p with
  | zero => rw [raiseOctaves, if_neg (by omega)]
  | succ up ih =>
    rw [raiseOctaves, octave]
    split
    next hneg =>
      rw [ih (by omega), subOctave_cast, subOctave_cast]
      split <;> omega
    next => rfl

/-- The counted loop, run often enough, divides by the octave. -/
theorem lowerOctaves_eq (down : Nat) {p : Int} (k : Nat) (hp : 0 ≤ p) (hdown : p < 1536 * (down + 1 : Int)) :
    lowerOctaves down p k = ((subOctave p : Int), k + octaveCount p) := by
  induction down generalizing p k with
  | zero =>
    obtain ⟨hsub, hcount⟩ := octaves_of_eq (p := p) (q := p.toNat) (k := 0) (by omega) (by omega)
    rw [lowerOctaves, hsub, hcount, Int.toNat_of_nonneg hp, Nat.add_zero]
  | succ down ih =>
    rw [lowerOctaves, octave]
    have hsub := subOctave_cast p
    have hcount := octaveCount_of_nonneg p hp
    split
    next hge =>
      have hsub' := subOctave_cast (p - 1536)
      have hcount' := octaveCount_of_nonneg (p - 1536) (by omega)
      rw [ih (k + 1) (by omega) (by push_cast at hdown; omega), Prod.mk.injEq]
      omega
    next hlt =>
      rw [Prod.mk.injEq]
      omega

/-- R122: both loops together are the closed form. -/
theorem lowerOctaves_raiseOctaves {p : Int} {up down : Nat} (hup : -(1536 * (up : Int)) ≤ p)
    (hdown : p < 1536 * (down + 1 : Int)) :
    lowerOctaves down (raiseOctaves up p) 0 = ((subOctave p : Int), octaveCount p) := by
  rw [raiseOctaves_eq up hup]
  split
  next hneg =>
    have hlt := subOctave_lt p
    obtain ⟨hsub, hcount⟩ := octaves_of_eq (p := subOctave p) (k := 0) hlt (by omega)
    rw [lowerOctaves_eq down 0 (by omega) (by omega), hsub, hcount, octaveCount_of_neg p hneg]
  next hpos => rw [lowerOctaves_eq down 0 (by omega) hdown, Nat.zero_add]

/-! ## The interpolation (R125) -/

section
variable {a b w : Nat}

theorem interpolate_zero_weight (a b : Nat) : interpolate a b 0 = a := by simp [interpolate]

/-- What the interpolation takes off a does not reach below b. -/
theorem interpolate_drop_le (hw : w < 16) : (a - b) * w / 16 ≤ a - b :=
  Nat.div_le_of_le_mul (Nat.mul_comm 16 (a - b) ▸ Nat.mul_le_mul_left _ hw.le)

/-- R125: the product fits in 20 bits. -/
theorem interpolate_product_lt (a b : Half) (hw : w < 16) : (a.toNat - b.toNat) * w < 2 ^ 20 :=
  calc (a.toNat - b.toNat) * w
    _ < 2 ^ 16 * 16 := Nat.mul_lt_mul'' (Nat.lt_of_le_of_lt (Nat.sub_le _ _) a.isLt) hw
    _ = 2 ^ 20 := rfl

theorem le_interpolate (hba : b ≤ a) (hw : w < 16) : b ≤ interpolate a b w := by
  have := interpolate_drop_le (a := a) (b := b) hw
  unfold interpolate
  omega

theorem sub_interpolate (hw : w < 16) : a - interpolate a b w = (a - b) * w / 16 := by
  have := interpolate_drop_le (a := a) (b := b) hw
  unfold interpolate
  omega

theorem interpolate_antitone (a b : Nat) {w w' : Nat} (h : w ≤ w') : interpolate a b w' ≤ interpolate a b w :=
  Nat.sub_le_sub_left (Nat.div_le_div_right (Nat.mul_le_mul_left _ h)) _

end

/-! ## The count of a pitch (R123 to R126) -/

section
variable (c : Config) {p p' : Int}

theorem interpolatedCount_congr (h : subOctave p = subOctave p') : interpolatedCount c p = interpolatedCount c p' := by
  simp only [interpolatedCount_eq, h]

/-- The count depends on the pitch only through q and k. -/
theorem dcoCount_congr (hq : subOctave p = subOctave p') (hk : octaveCount p = octaveCount p') :
    dcoCount c p = dcoCount c p' := by
  rw [dcoCount, dcoCount, interpolatedCount_congr c hq, hk]

/-- R128: at weight 0 the count is the entry itself, shifted. -/
theorem dcoCount_of_weight_zero {i : Nat} (hi : i ≤ 96) (h : subOctave p = 16 * i) :
    dcoCount c p = romRead c i hi >>> octaveCount p := by
  have hindex : subOctave p / 16 = i := by omega
  have hweight : subOctave p % 16 = 0 := by omega
  apply BitVec.eq_of_toNat_eq
  simp only [dcoCount_toNat, interpolatedCount_eq, hindex, hweight, interpolate_zero_weight,
    BitVec.toNat_ushiftRight, Nat.shiftRight_eq_div_pow]

/-- The interpolated count never rises with the sub-octave position: between two entries the weight grows, and past an
entry the count is on the other side of it. -/
theorem interpolatedCount_le_of_subOctave_le (h : subOctave p ≤ subOctave p') :
    interpolatedCount c p' ≤ interpolatedCount c p := by
  have hlt := subOctave_lt p'
  rw [interpolatedCount_eq, interpolatedCount_eq]
  obtain hindex | hindex : subOctave p' / 16 = subOctave p / 16 ∨ subOctave p / 16 + 1 ≤ subOctave p' / 16 := by omega
  · simp only [hindex]
    exact interpolate_antitone _ _ (by omega)
  · obtain ⟨d, hd⟩ := Nat.exists_eq_add_of_le hindex
    simp only [hd]
    calc interpolate _ _ _
      _ ≤ (romRead c (subOctave p / 16 + 1 + d) (by omega)).toNat := interpolate_le _ _ _
      _ ≤ (romRead c (subOctave p / 16 + 1) (by omega)).toNat := romRead_antitone c _ d (by omega)
      _ ≤ interpolate _ _ _ := le_interpolate (romRead_succ_le c _ (by omega)) (Nat.mod_lt _ (by decide))

end

/-! ## Zero bend, counted in semitones from the reference (R128, R130) -/

/-- Semitone n of octave j, counted from the reference. -/
theorem octaves_zero_bend (c : Config) (j : Nat) {n : Nat} (hn : n ≤ 11) :
    subOctave (pitch c (c.refNote + 12 * j + n) 0) = 128 * n ∧
      octaveCount (pitch c (c.refNote + 12 * j + n) 0) = j :=
  octaves_of_eq (by omega) (by rw [pitch_zero_bend]; omega)

end Sys2Proof.Machine

namespace Sys2Proof

open Sys2Proof.Machine

/-! ## The statements -/

/-- Settles O10: the command writes the count of the pitch, read as its interpolation between two entries. -/
theorem dcocvtWritesInterpolatedCount : Obligations.DcocvtWritesInterpolatedCount := by
  intro w s hop note bend p
  have hlt := subOctave_lt p
  refine ⟨decode_op1 w hop, encode_dcocvt_toNat_toInt _ _, _, exec_dcocvt s note bend,
    ⟨subOctave p, octaveCount p, hlt, octaves_cases p, _, _, lut_getElem? s.cfg _ (by omega),
      lut_getElem? s.cfg _ (by omega), ?_⟩, ?_⟩
  · exact dcoCount_toNat s.cfg p
  · simp

/-- Settles O11: each loop is an induction on its bound, and the count depends on q and k alone. -/
theorem octaveLoopsMeetClosedForm : Obligations.OctaveLoopsMeetClosedForm := by
  refine ⟨fun p up down => lowerOctaves_raiseOctaves,
    fun p => ⟨subOctave_cast p, octaveCount_of_nonneg p, octaveCount_of_neg p⟩, fun c p n hneg _ hlt => ?_⟩
  exact dcoCount_congr c (subOctave_add_mul p n).symm (by rw [octaveCount_of_neg p hneg, octaveCount_eq_zero hlt])

/-- Settles O12, by the ranges of the operands and the closed form of the loops. -/
theorem pitchAndLoopsBounded : Obligations.PitchAndLoopsBounded := by
  intro c note bend hwf p
  obtain ⟨hlo, hhi⟩ : -24448 ≤ p ∧ p ≤ 24447 := pitch_mem c hwf
  refine ⟨hlo, hhi, ?_, ?_, ?_⟩
  · rw [raiseOctaves_eq 16 (by omega)]
    split <;> omega
  · rw [lowerOctaves_raiseOctaves (by omega) (by omega)]
    exact Int.ofNat_lt.mpr (subOctave_lt p)
  · have := octaves_cases p
    omega

/-- Settles O13, by what the interpolation takes off the first entry. -/
theorem interpolationBetweenEntries : Obligations.InterpolationBetweenEntries := by
  intro c p
  have hlt := subOctave_lt p
  have hw : subOctave p % 16 < 16 := Nat.mod_lt _ (by decide)
  have hba := romRead_succ_le c (subOctave p / 16) (by omega)
  refine ⟨_, _, _, hw, lut_getElem? c _ (by omega), lut_getElem? c _ (by omega), rfl, hba,
    interpolate_product_lt _ _ hw, ?_⟩
  rw [interpolatedCount_eq, sub_interpolate hw]
  refine ⟨le_interpolate hba hw, interpolate_le _ _ _, fun hzero => ?_, by omega, by omega⟩
  rw [hzero, interpolate_zero_weight]

/-- Settles O14: a whole number of semitones has a position divisible by 128, which is 16 * 8. -/
theorem zeroBendReadsTableEntry : Obligations.ZeroBendReadsTableEntry := by
  intro note s
  have hpitch := pitch_zero_bend s.cfg note
  have hsub := subOctave_cast (pitch s.cfg note 0)
  obtain ⟨i, hi⟩ : ∃ i : Nat, (i : Int) = 8 * (((note : Int) - s.cfg.refNote) % 12) :=
    ⟨_, Int.toNat_of_nonneg (by omega)⟩
  have hindex : subOctave (pitch s.cfg note 0) = 16 * i := by omega
  refine ⟨_, i, _, exec_dcocvt s note 0, hi, lut_getElem? s.cfg i (by omega), ⟨_, hpitch⟩, ?_, ?_⟩
  · rw [weight, hindex, Nat.mul_mod_right]
  · exact dcoCount_of_weight_zero s.cfg (by omega) hindex

/-- Settles O15: twelve notes are one octave of pitch, which the counted loop counts and the uncounted one does not. -/
theorem octaveUpHalvesCount : Obligations.OctaveUpHalvesCount := by
  intro note bend s
  have hsub : subOctave (pitch s.cfg (note + 12) bend) = subOctave (pitch s.cfg note bend) := by
    rw [pitch_add_twelve]
    exact subOctave_add_mul _ 1
  refine ⟨_, _, exec_dcocvt s note bend, exec_dcocvt s (note + 12) bend, fun hpos => ?_, fun hneg => ?_⟩
  · have hcount : octaveCount (pitch s.cfg (note + 12) bend) = octaveCount (pitch s.cfg note bend) + 1 := by
      have hnew := octaveCount_of_nonneg (pitch s.cfg note bend + 1536) (by omega)
      have hold := octaveCount_of_nonneg (pitch s.cfg note bend) hpos
      rw [pitch_add_twelve]
      omega
    refine ⟨hsub, hcount, ?_⟩
    simp only [State.withDrumStep_dcoFreq, State.withDcoFreq_dcoFreq, dcoCount_toNat, hcount]
    rw [interpolatedCount_congr _ hsub, Nat.pow_succ, Nat.div_div_eq_div_mul]
  · have hcount : octaveCount (pitch s.cfg (note + 12) bend) = 0 := by
      rw [pitch_add_twelve]
      exact octaveCount_eq_zero (by omega)
    exact ⟨hsub, hcount, dcoCount_congr _ hsub (hcount.trans (octaveCount_of_neg _ hneg).symm)⟩

/-- Settles O16: at the same k the position rises with the pitch, so the interpolated count falls. -/
theorem countFallsWithinOctave : Obligations.CountFallsWithinOctave := by
  intro c p p' hpos hle hk
  have hsub : subOctave p ≤ subOctave p' := by
    have hp := octaves_cases p
    have hp' := octaves_cases p'
    omega
  rw [BitVec.le_def, dcoCount_toNat, dcoCount_toNat, hk]
  exact Nat.div_le_div_right (interpolatedCount_le_of_subOctave_le c hsub)

/-- Settles O17: within the octave by CountFallsWithinOctave; across it the two counts are the entries 0 and 88,
shifted. -/
theorem zeroBendFallsAcrossOctaveIff : Obligations.ZeroBendFallsAcrossOctaveIff := by
  intro c j
  constructor
  · intro m n hmn hn
    obtain ⟨-, hkm⟩ := octaves_zero_bend c j (hmn.trans hn)
    obtain ⟨-, hkn⟩ := octaves_zero_bend c j hn
    refine countFallsWithinOctave c _ _ ?_ ?_ (hkm.trans hkn.symm)
    · rw [pitch_zero_bend]
      omega
    · rw [pitch_zero_bend, pitch_zero_bend]
      omega
  · obtain ⟨hqFirst, hkFirst⟩ := octaves_zero_bend c (j + 1) (Nat.zero_le 11)
    obtain ⟨hqLast, hkLast⟩ := octaves_zero_bend c j (Nat.le_refl 11)
    rw [Nat.add_zero] at hqFirst hkFirst
    rw [dcoCount_of_weight_zero c (i := 0) (by decide) hqFirst, hkFirst,
      dcoCount_of_weight_zero c (i := 88) (by decide) hqLast, hkLast]
    exact Iff.rfl

end Sys2Proof
end

section
/-! SUPPORT. The statements of 42_rng.md: the LFSR step (R151, R155), its period (R156), and RNGDRAW, alone (R150, R152,
R153) and in a run of commands (R154, R157). First the lemmas they use, in the order of the definitions they speak of;
then the statements. -/

namespace Sys2Proof.Machine

open Function (IsPeriodicPt minimalPeriod periodicPts Semiconj₂)

/-! ## One LFSR step (R151) -/

theorem lfsr_eq_xor (x : Half) : lfsr x = x >>> 1 ^^^ if x.getLsbD 0 then rngMask else 0#16 := by
  cases hlow : x.getLsbD 0 with
  | true => exact lfsr_of_low x hlow
  | false => exact (lfsr_of_not_low x hlow).trans BitVec.xor_zero.symm

theorem lfsr_getLsbD (x : Half) {i : Nat} (hi : i < 16) :
    (lfsr x).getLsbD i = ((i < 15 && x.getLsbD (i + 1)) ^^ (x.getLsbD 0 && rngMask.getLsbD i)) := by
  have hshift : (x >>> 1).getLsbD i = (i < 15 && x.getLsbD (i + 1)) := by
    rw [BitVec.getLsbD_ushiftRight, Nat.add_comm]
    obtain h | rfl : i < 15 ∨ i = 15 := by omega
    · simp [h]
    · exact BitVec.getLsbD_of_ge x _ (Nat.le_refl _)
  rw [lfsr_eq_xor, BitVec.getLsbD_xor, hshift]
  cases x.getLsbD 0 <;> simp

theorem lfsr_zero : lfsr 0#16 = 0#16 := by decide

/-- The step is linear over the two-element field: the shift and the condition on bit 0 both are. -/
theorem lfsr_xor : Semiconj₂ lfsr (· ^^^ ·) (· ^^^ ·) := by
  intro x y
  refine BitVec.eq_of_getLsbD_eq fun i hi => ?_
  simp only [lfsr_getLsbD _ hi, BitVec.getLsbD_xor, Bool.and_xor_distrib_left, Bool.and_xor_distrib_right]
  simp only [Bool.xor_assoc, Bool.xor_left_comm]

theorem lfsr_iterate_ne_zero {x : Half} (hx : x ≠ 0#16) (n : Nat) : lfsr^[n] x ≠ 0#16 := by
  induction n generalizing x with
  | zero => exact hx
  | succ n ih => exact ih (lfsr_ne_zero hx)

/-! ## Many LFSR steps at once

Bit 15 - i of a state is the coefficient of X^i, and a step multiplies by X modulo the feedback polynomial. So the
states `lfsr^[n] lfsrOne` are the powers of X, and one of them is reached by squaring in a few steps. -/

/-- The state that stands for the polynomial 1. -/
def lfsrOne : Half := 0x8000#16

/-- The low `k` bits of `a`, read as a polynomial in the step with bit `k - 1` its constant term, applied to `y`. -/
def applyLow (a y : Half) : Nat → Half
  | 0 => 0#16
  | k + 1 => lfsr (applyLow a y k) ^^^ if a.getLsbD k then y else 0#16

/-- The product of two states as polynomials, modulo the feedback polynomial. -/
def stateMul (a y : Half) : Half := applyLow a y 16

theorem applyLow_lfsr (a y : Half) (k : Nat) : applyLow a (lfsr y) k = lfsr (applyLow a y k) := by
  induction k with
  | zero => exact lfsr_zero.symm
  | succ k ih =>
    rw [applyLow, applyLow, ih, lfsr_xor]
    split
    · rfl
    · rw [lfsr_zero]

theorem stateMul_iterate (a y : Half) (n : Nat) : stateMul a (lfsr^[n] y) = lfsr^[n] (stateMul a y) :=
  Function.Semiconj.iterate_right (fun y => applyLow_lfsr a y 16) n y

theorem lfsrOne_getLsbD : ∀ i < 16, lfsrOne.getLsbD i = decide (i = 15) := by decide

/-- Applied to 1, the low `k` bits give back themselves, moved to the top: no step of the loop shifts a 1 out. -/
theorem applyLow_one (a : Half) {k : Nat} (hk : k ≤ 16) : applyLow a lfsrOne k = a <<< (16 - k) := by
  induction k with
  | zero => exact BitVec.eq_of_getLsbD_eq fun i hi => by simp [applyLow, hi]
  | succ k ih =>
    have hlow : (a <<< (16 - k)).getLsbD 0 = false := by
      rw [BitVec.getLsbD_shiftLeft, decide_eq_true (show 0 < 16 - k by omega), Bool.not_true, Bool.and_false,
        Bool.false_and]
    have hone {i : Nat} (hi : i < 16) :
        (if a.getLsbD k then lfsrOne else 0#16).getLsbD i = (a.getLsbD k && decide (i = 15)) := by
      cases a.getLsbD k <;> simp [lfsrOne_getLsbD i hi]
    rw [applyLow, ih (by omega), lfsr_of_not_low _ hlow]
    refine BitVec.eq_of_getLsbD_eq fun i hi => ?_
    rw [BitVec.getLsbD_xor, hone hi, BitVec.getLsbD_ushiftRight, BitVec.getLsbD_shiftLeft, BitVec.getLsbD_shiftLeft]
    obtain hi15 | rfl : i < 15 ∨ i = 15 := by omega
    · have hindex : 1 + i - (16 - k) = i - (16 - (k + 1)) := by omega
      have hrange : 1 + i < 16 - k ↔ i < 16 - (k + 1) := by omega
      simp [hindex, hrange, hi, show 1 + i < 16 by omega, show i ≠ 15 by omega]
    · simp [show 15 - (15 - k) = k by omega, show ¬ 15 < 15 - k by omega]

theorem stateMul_one (a : Half) : stateMul a lfsrOne = a :=
  (applyLow_one a (Nat.le_refl 16)).trans (BitVec.shiftLeft_zero a)

theorem lfsr_iterate_add_one (m n : Nat) :
    lfsr^[m + n] lfsrOne = stateMul (lfsr^[m] lfsrOne) (lfsr^[n] lfsrOne) := by
  rw [stateMul_iterate, stateMul_one, Nat.add_comm, Function.iterate_add_apply]

/-- The state after as many steps from `lfsrOne` as the bits say, bit 0 first, by squaring. -/
def powerOfBits : List Bool → Half
  | [] => lfsrOne
  | b :: bs =>
    let x := powerOfBits bs
    if b then lfsr (stateMul x x) else stateMul x x

theorem lfsr_iterate_bitsToNat (bs : List Bool) : lfsr^[bitsToNat bs] lfsrOne = powerOfBits bs := by
  induction bs with
  | nil => rfl
  | cons b bs ih =>
    have hdouble : lfsr^[2 * bitsToNat bs] lfsrOne = stateMul (powerOfBits bs) (powerOfBits bs) := by
      rw [Nat.two_mul, lfsr_iterate_add_one, ih]
    cases b with
    | false => rw [bitsToNat, Bool.toNat_false, Nat.zero_add, hdouble]; rfl
    | true => rw [bitsToNat, Bool.toNat_true, Function.iterate_add_apply, hdouble]; rfl

/-! ## The period of the LFSR (R156) -/

theorem minimalPeriod_eq_of_prime {α : Type} {f : α → α} {x : α} {n : Nat} (hn : IsPeriodicPt f n x)
    (hprime : ∀ p, p.Prime → p ∣ n → ¬ IsPeriodicPt f (n / p) x) : minimalPeriod f x = n := by
  obtain ⟨k, hk⟩ := hn.minimalPeriod_dvd
  by_contra hne
  obtain ⟨p, hp, c, rfl⟩ := Nat.exists_prime_and_dvd (n := k) (by rintro rfl; exact hne (by omega))
  have hfactor : n = p * (minimalPeriod f x * c) := by rw [hk, Nat.mul_left_comm]
  refine hprime p hp ⟨_, hfactor⟩ ?_
  rw [Function.isPeriodicPt_iff_minimalPeriod_dvd]
  exact ⟨c, Nat.div_eq_of_eq_mul_right hp.pos hfactor⟩

/-- The number of nonzero 16-bit states, 65535, is 3 * 5 * 17 * 257. -/
theorem prime_dvd_65535 {p : Nat} (hp : p.Prime) (hdvd : p ∣ 65535) : p = 3 ∨ p = 5 ∨ p = 17 ∨ p = 257 := by
  have hfactors : p ∣ 3 * (5 * (17 * 257)) := hdvd
  rw [hp.dvd_mul, hp.dvd_mul, hp.dvd_mul] at hfactors
  have heq {q : Nat} (hq : q.Prime) : p ∣ q ↔ p = q := Nat.prime_dvd_prime_iff_eq hp hq
  rwa [heq Nat.prime_three, heq Nat.prime_five, heq (by norm_num : Nat.Prime 17),
    heq (by norm_num : Nat.Prime 257)] at hfactors

/-- The bit lists below are 65535 and its quotients by 3, 5, 17 and 257; each power is at most sixteen squarings. -/
theorem minimalPeriod_lfsrOne : minimalPeriod lfsr lfsrOne = 65535 := by
  have hperiod (bs : List Bool) {n : Nat} (hn : bitsToNat bs = n) :
      IsPeriodicPt lfsr n lfsrOne ↔ powerOfBits bs = lfsrOne := by
    rw [← lfsr_iterate_bitsToNat, hn]
    exact Iff.rfl
  refine minimalPeriod_eq_of_prime ?_ fun p hp hdvd => ?_
  · exact (hperiod (List.replicate 16 true) rfl).mpr (by decide +kernel)
  · obtain rfl | rfl | rfl | rfl := prime_dvd_65535 hp hdvd
    · exact (hperiod (List.replicate 8 [true, false]).flatten rfl).not.mpr (by decide +kernel)
    · exact (hperiod (List.replicate 4 [true, true, false, false]).flatten rfl).not.mpr (by decide +kernel)
    · exact (hperiod [true, true, true, true, false, false, false, false, true, true, true, true] rfl).not.mpr
        (by decide +kernel)
    · exact (hperiod (List.replicate 8 true) rfl).not.mpr (by decide +kernel)

/-- The iterates of a nonzero state with full period are 65535 different nonzero states, and there are no others. -/
theorem exists_lfsr_iterate_of_minimalPeriod {x y : Half} (hperiod : minimalPeriod lfsr x = 65535) (hx : x ≠ 0#16)
    (hy : y ≠ 0#16) : ∃ n < 65535, lfsr^[n] x = y := by
  have hrange (z : Half) (hz : z ≠ 0#16) : z.toNat ∈ Finset.Icc 1 65535 := by
    rw [Ne, BitVec.toNat_eq, BitVec.toNat_zero] at hz
    have := z.isLt
    rw [Finset.mem_Icc]
    omega
  have hinj : Set.InjOn (fun n => (lfsr^[n] x).toNat) (Finset.range 65535) := by
    intro m hm n hn heq
    rw [Finset.coe_range, Set.mem_Iio, ← hperiod] at hm hn
    exact Function.iterate_injOn_Iio_minimalPeriod hm hn (BitVec.eq_of_toNat_eq heq)
  have hsurj := Finset.surjOn_of_injOn_of_card_le (t := Finset.Icc 1 65535) _
    (fun n _ => hrange _ (lfsr_iterate_ne_zero hx n)) hinj (by simp)
  obtain ⟨n, hn, heq⟩ := hsurj (hrange y hy)
  exact ⟨n, Finset.mem_range.mp hn, BitVec.eq_of_toNat_eq heq⟩

theorem minimalPeriod_lfsr {x : Half} (hx : x ≠ 0#16) : minimalPeriod lfsr x = 65535 := by
  obtain ⟨n, -, rfl⟩ := exists_lfsr_iterate_of_minimalPeriod minimalPeriod_lfsrOne (by decide) hx
  have hmem : lfsrOne ∈ periodicPts lfsr := by
    rw [← Function.minimalPeriod_pos_iff_mem_periodicPts, minimalPeriod_lfsrOne]
    decide
  rw [Function.minimalPeriod_apply_iterate hmem, minimalPeriod_lfsrOne]

theorem lfsr_iterate_eq_self_iff {x : Half} (hx : x ≠ 0#16) (n : Nat) : lfsr^[n] x = x ↔ 65535 ∣ n := by
  rw [← minimalPeriod_lfsr hx]
  exact Function.isPeriodicPt_iff_minimalPeriod_dvd

theorem exists_lfsr_iterate {x y : Half} (hx : x ≠ 0#16) (hy : y ≠ 0#16) : ∃ n < 65535, lfsr^[n] x = y :=
  exists_lfsr_iterate_of_minimalPeriod (minimalPeriod_lfsr hx) hx hy

/-- Two different states have, some steps later, different derived values: their difference runs
through every nonzero state, and so at some time is bit 15 alone. -/
theorem exists_derivedValue_ne {x y : Half} (hne : x ≠ y) :
    ∃ k, derivedValue (lfsr^[k + 1] x) ≠ derivedValue (lfsr^[k + 1] y) := by
  have hdiff : lfsr (x ^^^ y) ≠ 0#16 := lfsr_ne_zero (mt BitVec.xor_eq_zero_iff.mp hne)
  obtain ⟨k, -, hk⟩ := exists_lfsr_iterate (y := lfsrOne) hdiff (by decide)
  refine ⟨k, fun heq => ?_⟩
  have hxor : lfsr^[k + 1] x ^^^ lfsr^[k + 1] y = lfsrOne :=
    (lfsr_xor.iterate (k + 1) x y).symm.trans hk
  have hzero : derivedValue (lfsr^[k + 1] x ^^^ lfsr^[k + 1] y) = 0#12 := by
    rw [derivedValue, BitVec.extractLsb'_xor]
    exact BitVec.xor_eq_zero_iff.mpr heq
  rw [hxor] at hzero
  exact absurd hzero (by decide)

/-- The step k + 1 is the first or the second step of the draw after k / 2 draws. -/
theorem succ_eq_two_mul_div_two_add (k : Nat) : k + 1 = 2 * (k / 2) + 1 ∨ k + 1 = 2 * (k / 2) + 2 := by
  omega

/-! ## RNGDRAW and the generator's registers (R150, R153, R157) -/

theorem derivedValue_toNat (x : Half) : (derivedValue x).toNat = x.toNat / 2 ^ 4 := by
  have hlt : x.toNat / 2 ^ 4 < 2 ^ 12 := by have := x.isLt; omega
  rw [derivedValue, BitVec.extractLsb'_toNat, Nat.shiftRight_eq_div_pow, Nat.mod_eq_of_lt hlt]

/-- RNG_STATE, RAND[0] and RAND[1]. -/
def State.rngRegs (s : State) : Half × Rand × Rand := (s.rngState, s.rand0, s.rand1)

theorem State.rngRegs_eq {s : State} {r : Half × Rand × Rand} (h : s.rngRegs = r) :
    s.rngState = r.1 ∧ s.rand0 = r.2.1 ∧ s.rand1 = r.2.2 :=
  h ▸ ⟨rfl, rfl, rfl⟩

/-- What RNGDRAW does to the three registers. -/
def draw (r : Half × Rand × Rand) : Half × Rand × Rand :=
  (lfsr (lfsr r.1), derivedValue (lfsr r.1), derivedValue (lfsr (lfsr r.1)))

theorem exec_rngRegs_cases {i : Instr} {s t : State} (h : exec i s = .next t) :
    (i = .rngdraw ∧ t.rngRegs = draw s.rngRegs) ∨ (i ≠ .rngdraw ∧ t.rngRegs = s.rngRegs) := by
  cases i with
  | rngdraw =>
    cases h
    exact .inl ⟨rfl, rfl⟩
  | rtarm id =>
    cases h
    exact .inr ⟨nofun, by simp [State.rngRegs]⟩
  | _ =>
    cases h
    exact .inr ⟨nofun, rfl⟩

theorem runCommands_rngRegs (is : List Instr) (s : State) :
    ∃ t, runCommands is s = .next t ∧ t.rngRegs = draw^[drawCount is] s.rngRegs := by
  induction is generalizing s with
  | nil => exact ⟨s, rfl, rfl⟩
  | cons i is ih =>
    obtain ⟨u, hu⟩ := exec_completes i s
    obtain ⟨t, hrun, ht⟩ := ih u
    refine ⟨t, (runCommands_cons hu is).trans hrun, ?_⟩
    obtain ⟨rfl, hregs⟩ | ⟨hi, hregs⟩ := exec_rngRegs_cases hu
    · have hcount : drawCount (.rngdraw :: is) = drawCount is + 1 := List.countP_cons_of_pos rfl
      rw [ht, hregs, hcount, Function.iterate_succ_apply]
    · have hcount : drawCount (i :: is) = drawCount is := List.countP_cons_of_neg (by simpa using hi)
      rw [ht, hregs, hcount]

theorem draw_iterate_fst (r : Half × Rand × Rand) (n : Nat) : (draw^[n] r).1 = lfsr^[2 * n] r.1 := by
  induction n with
  | zero => rfl
  | succ n ih =>
    rw [Function.iterate_succ_apply', draw, ih, Nat.mul_succ, Function.iterate_succ_apply', Function.iterate_succ_apply']

/-- After a draw the two values are those of the last two states, whatever they were before. -/
theorem draw_iterate_succ (r : Half × Rand × Rand) (n : Nat) :
    draw^[n + 1] r =
      (lfsr^[2 * n + 2] r.1, derivedValue (lfsr^[2 * n + 1] r.1), derivedValue (lfsr^[2 * n + 2] r.1)) := by
  rw [Function.iterate_succ_apply', draw, draw_iterate_fst, Function.iterate_succ_apply', Function.iterate_succ_apply']

theorem State.RandFromDraw.congr {s t : State} (hs : s.RandFromDraw) (h : t.rngRegs = s.rngRegs) : t.RandFromDraw := by
  obtain ⟨hstate, hrand0, hrand1⟩ := State.rngRegs_eq h
  rwa [State.RandFromDraw, hstate, hrand0, hrand1]

theorem State.randFromDraw_of_draw {s t : State} (h : t.rngRegs = draw s.rngRegs) : t.RandFromDraw := by
  obtain ⟨hstate, hrand0, hrand1⟩ := State.rngRegs_eq h
  exact .inr ⟨s.rngState, hstate, hrand0, hrand1.trans (congrArg derivedValue hstate.symm)⟩

end Sys2Proof.Machine

namespace Sys2Proof

open Sys2Proof.Machine

/-! ## The statements -/

/-- Settles O18: every word of opcode 2 is RNGDRAW, which writes the generator's three registers. -/
theorem rngdrawAdvancesTwice : Obligations.RngdrawAdvancesTwice := by
  refine ⟨by decide, fun w s hop => ⟨decode_op2 w hop, _, exec_rngdraw s, ?_⟩⟩
  simp [derivedValue_toNat]

/-- Settles O19, the mask being 0xB400. -/
theorem lfsrStepByBits : Obligations.LfsrStepByBits := fun x _ hi => lfsr_getLsbD x hi

/-- Settles O20, by induction on the number of steps from the seed. -/
theorem lfsrKeepsNonzero : Obligations.LfsrKeepsNonzero :=
  ⟨fun _ => lfsr_ne_zero, lfsr_getLsbD_fifteen, lfsr_zero, lfsr_iterate_ne_zero (by decide)⟩

/-- Settles O21: every nonzero state has period 65535, which is odd, so two steps at a time it is the same. -/
theorem lfsrPeriodIsFull : Obligations.LfsrPeriodIsFull := by
  have hseed : rngSeed ≠ 0#16 := by decide
  have hself := lfsr_iterate_eq_self_iff hseed
  have hdouble : lfsr^[2 * 65535] rngSeed = rngSeed := (hself _).mpr (Nat.dvd_mul_left _ _)
  have hrepeat (k n : Nat) : lfsr^[2 * (n + 65535) + k] rngSeed = lfsr^[2 * n + k] rngSeed := by
    rw [Nat.mul_add, Nat.add_right_comm, Function.iterate_add_apply, hdouble]
  refine ⟨(hself _).mpr (Nat.dvd_refl _), fun n hpos hlt => ?_, fun x hx => exists_lfsr_iterate hseed hx,
    fun n => ⟨congrArg derivedValue (hrepeat 1 n), congrArg derivedValue (hrepeat 2 n)⟩, hdouble, fun m hpos hlt => ?_⟩
  · rw [Ne, hself]
    exact Nat.not_dvd_of_pos_of_lt hpos hlt
  · have hne : lfsr^[2 * m] rngSeed ≠ rngSeed := by
      rw [Ne, hself]
      exact fun hdvd => Nat.not_dvd_of_pos_of_lt hpos hlt (Nat.Coprime.dvd_of_dvd_mul_left (by decide) hdvd)
    have hshift (n k : Nat) : lfsr^[2 * (n + m) + k] rngSeed = lfsr^[2 * n + k] (lfsr^[2 * m] rngSeed) := by
      rw [← Function.iterate_add_apply, Nat.mul_add, Nat.add_right_comm]
    obtain ⟨k, hk⟩ := exists_derivedValue_ne hne
    refine ⟨hne, k / 2, ?_⟩
    rw [hshift, hshift]
    obtain hodd | heven := succ_eq_two_mul_div_two_add k
    · exact .inl (hodd ▸ hk)
    · exact .inr (heven ▸ hk)

/-- Settles O22: a run of commands applies RNGDRAW to the generator's registers once for each RNGDRAW in it. -/
theorem drawsDependOnlyOnTheirNumber : Obligations.DrawsDependOnlyOnTheirNumber := by
  intro is s
  obtain ⟨t, hrun, hregs⟩ := runCommands_rngRegs is s
  refine ⟨t, hrun, ?_⟩
  cases hcount : drawCount is with
  | zero =>
    rw [hcount] at hregs
    obtain ⟨hstate, hrand⟩ := State.rngRegs_eq hregs
    exact ⟨hstate, nofun, fun _ => hrand⟩
  | succ n =>
    rw [hcount, draw_iterate_succ] at hregs
    obtain ⟨hstate, hrand⟩ := State.rngRegs_eq hregs
    exact ⟨hstate, fun _ => hrand, nofun⟩

/-- Settles O34: a reset step restores the seed, RNGDRAW derives both values from its two steps, and nothing else
writes the generator's registers. -/
theorem randBelongsToLfsrState : Obligations.RandBelongsToLfsrState := by
  refine ⟨.inl ⟨rfl, rfl, rfl⟩, fun s t hs h => ?_⟩
  obtain ⟨-, rfl⟩ | ⟨-, p, -, rfl⟩ | ⟨-, w, p, -, hexec⟩ := step_cases h
  · exact .inl ⟨rfl, rfl, rfl⟩
  · exact hs.congr rfl
  · obtain ⟨-, hregs⟩ | ⟨-, hregs⟩ := exec_rngRegs_cases hexec
    · exact State.randFromDraw_of_draw hregs
    · exact hs.congr hregs

end Sys2Proof
end

section
/-! SUPPORT. The statements of 43_control.md: NOP (R170), SRESET (R171) and the reserved opcodes (R77, R172). First what
the ten reserved commands share; then the statements. -/

namespace Sys2Proof

/-- The commands of the reserved opcodes, in the order of the opcode map (R75, R77). -/
def reservedCommands : List Instr :=
  [.reserved6, .reserved7, .reserved8, .reserved9, .reservedA, .reservedB, .reservedC, .reservedD, .reservedE,
    .reservedF]

/-- R77: the reserved opcodes are exactly those from 0x6 on. -/
theorem mem_reservedCommands_iff (i : Instr) : i ∈ reservedCommands ↔ 0x6#4 ≤ i.opcode := by
  cases i with
  | dcocvt | rtarm | rttick => simp [reservedCommands, Instr.opcode]
  | _ => decide

theorem decode_mem_reservedCommands {w : Word} (hop : 0x6#4 ≤ opField w) : decode w ∈ reservedCommands := by
  rwa [mem_reservedCommands_iff, opcode_decode]

end Sys2Proof

namespace Sys2Proof.Machine

/-- R172, by the equation of each of the ten commands. -/
theorem exec_of_mem_reservedCommands (s : State) : ∀ i ∈ reservedCommands, exec i s = .next (s.withDrumStep false) := by
  simp [reservedCommands]

end Sys2Proof.Machine

namespace Sys2Proof

open Sys2Proof.Machine

/-! ## The statements -/

/-- Settles O4: a word of opcode 0x6 to 0xF decodes to a reserved command, and each of these only lowers the strobe. -/
theorem reservedOpcodesExecuteAsNop : Obligations.ReservedOpcodesExecuteAsNop :=
  ⟨fun _ s hop => exec_of_mem_reservedCommands s _ (decode_mem_reservedCommands hop), exec_of_mem_reservedCommands,
    fun _ => decode_mem_reservedCommands⟩

/-- Settles O3: every word of opcode 0 is NOP, which only lowers the strobe. -/
theorem nopLeavesState : Obligations.NopLeavesState :=
  ⟨by decide, fun w s hop => ⟨decode_op0 w hop, exec_nop s⟩⟩

/-- Settles O5: every word of opcode 5 is SRESET, which writes NCNT zero countdowns and a zero STATUS. -/
theorem sresetClearsCountdownsAndStatus : Obligations.SresetClearsCountdownsAndStatus := by
  refine ⟨by decide, fun w s hop => ⟨decode_op5 w hop, _, exec_sreset s, List.length_replicate ..,
    fun _ => List.eq_of_mem_replicate, State.chg_of_status_zero rfl, State.dtick_of_status_zero rfl, ?_⟩⟩
  simp

end Sys2Proof
end

section
/-! SUPPORT. The statements of 60_exceptions.md: nothing is raised (R180, R181) and a clock with no command changes no
register (R191). First, that every step, and hence every run, has a next state; then the statements. -/

namespace Sys2Proof.Machine

/-- A power-on reset and an idle clock answer outright, and an accepted command always completes. -/
theorem step_completes (s : State) : ∃ t, step s = .next t := by
  cases hrst : s.port.rst with
  | true => exact ⟨_, step_of_rst s hrst⟩
  | false =>
    cases htake : s.port.nextClock.takeCommand with
    | mk taken p =>
      cases taken with
      | none => exact ⟨_, step_of_none s p hrst htake⟩
      | some w =>
        rw [step_of_some s p w hrst htake]
        exact exec_completes (decode w) (s.withPort p)

/-- A machine each of whose steps has a next state runs for any number of steps. -/
theorem run_completes {M : Host.Core} (hstep : ∀ s, ∃ t, M.step s = .next t) (n : Nat) (s : M.State) :
    ∃ t, M.run n s = .next t := by
  induction n generalizing s with
  | zero => exact ⟨s, rfl⟩
  | succ n ih =>
    obtain ⟨u, hu⟩ := hstep s
    rw [Host.Core.run, hu]
    exact ih u

end Sys2Proof.Machine

namespace Sys2Proof

open Sys2Proof.Machine

/-! ## The statements -/

/-- Settles O28, by cases on the command: every arm of the dispatch ends in `complete`, none in a fault or a refusal. -/
theorem everyCommandCompletes : Obligations.EveryCommandCompletes := exec_completes

/-- Settles O26: with both queues empty the port takes nothing, so only the strobe and the rst waveform move. -/
theorem idleClockHoldsRegisters : Obligations.IdleClockHoldsRegisters := by
  intro s hrst hhost htimer
  have hlow : s.port.rst = false := rst_eq_false hrst
  have htake : s.port.nextClock.takeCommand = (none, s.port.nextClock) := takeCommand_none _ hhost htimer
  rw [step_of_none s _ hlow htake, State.idle, State.withDrumStep, State.withPort, Port.nextClock, hhost, htimer]

/-- Settles O29, by induction on the number of steps: each step has a next state, whatever the state. -/
theorem noRunEverStops : Obligations.NoRunEverStops := fun s n => run_completes (M := core) step_completes n s

end Sys2Proof
end

section
/-! SUPPORT. The statement of 70_reset_and_hazards.md: the power-on reset step (R200), from any state. What it writes
is State.powerOn (R35); the rst waveform moves on and the pins are otherwise left alone. -/

namespace Sys2Proof

open Sys2Proof.Machine

/-- Settles O1: the step is the power-on reset of a state whose waveform has moved on by one clock, and every
countdown is one of its NCNT zeros. -/
theorem powerOnResetWritesEveryRegister : Obligations.PowerOnResetWritesEveryRegister := by
  intro s hrst
  have hstep : step s = .next (s.withPort s.port.nextClock).powerOn := step_of_rst s ((rst_iff _).mpr hrst)
  have hcnt : ∀ c ∈ (s.withPort s.port.nextClock).powerOn.cnt, c = 0#8 := fun _ => List.eq_of_mem_replicate
  exact ⟨_, hstep, rfl, rfl, rfl, rfl, List.length_replicate .., hcnt, State.chg_of_status_zero rfl,
    State.dtick_of_status_zero rfl, rfl, rfl, rfl, rfl, rfl, rfl⟩

end Sys2Proof
end
